-- ==== Sys2Proof/Word.lean ====
section
/-! DEFINITION. The word types of the block: bytes (registers, buffer entries, codes), 16-bit register pairs
and 32-bit command words (spec/00_scope.md R8, spec/10_state.md R24, spec/30_encoding.md R85). -/

namespace Sys2Proof

/-- 8 bits: a control register, a buffer entry, a duration code, a response (R8 "Byte is 8 bits"). -/
abbrev Byte := BitVec 8

/-- 16 bits: the register pairs `D_LEN`, `D_SRC`, `D_REM` and the index field of a command (R24, R86). -/
abbrev Half := BitVec 16

/-- 32 bits: one command word, handed over whole (R85). -/
abbrev Word := BitVec 32

end Sys2Proof
end

