-- ==== Sys2Proof/Syntax.lean ====
section
/-! DEFINITION. The ten commands (spec/30_encoding.md R88, spec/opcode_table.json), one constructor per row. -/

namespace Sys2Proof

/-- A host command with its operands as R87 and R91 give them: a bit, a byte, and unsigned integers for a
buffer index and a register number ("used as an unsigned integer exactly as it stands in its field").
That the integers fit their fields is `Instr.wellFormed` (DESIGN CHOICE, log 19). -/
inductive Instr where
  /-- `SYSINIT` (R190). -/
  | sysinit
  /-- `ENCODE bit` (R111). -/
  | encode (bit : Bool)
  /-- `BUFINIT` (R122). -/
  | bufinit
  /-- `BUFWR idx, val` (R123). -/
  | bufwr (idx : Nat) (val : Byte)
  /-- `BUFRD idx` (R124). -/
  | bufrd (idx : Nat)
  /-- `TCFG` (R141). -/
  | tcfg
  /-- `TSTART` (R142). -/
  | tstart
  /-- `DCFG` (R166). -/
  | dcfg
  /-- `DARM` (R167). -/
  | darm
  /-- `RDCR n` (R191). -/
  | rdcr (n : Nat)
  deriving DecidableEq, Repr

/-- One row of the opcode map: a word is the command exactly when `W & mask = pattern` (R88). -/
structure OpcodeRow where
  pattern : Word
  mask    : Word
  deriving DecidableEq, Repr

end Sys2Proof
end

