-- ==== Sys2Proof/WellFormed.lean ====
section
/-! DEFINITION. Which instructions have an encoding: "The assembler refuses an operand that does not fit its
field" (spec/30_encoding.md R91; field widths R86). -/

namespace Sys2Proof

/-- An index operand fits the 16-bit field `a` (R86, R91: idx 0..65535). -/
def indexFits (idx : Nat) : Bool := decide (idx < 65536)

/-- A register-number operand fits the 8-bit field `b` (R86, R91: n 0..255). -/
def regNumberFits (n : Nat) : Bool := decide (n < 256)

/-- Every operand fits its field.  A register number above 15 or an index outside the buffer is legal here:
it "decodes but is rejected at execution" (R90). -/
def Instr.wellFormed : Instr → Bool
  | .sysinit => true
  | .encode _ => true
  | .bufinit => true
  | .bufwr idx _ => indexFits idx
  | .bufrd idx => indexFits idx
  | .tcfg => true
  | .tstart => true
  | .dcfg => true
  | .darm => true
  | .rdcr n => regNumberFits n

end Sys2Proof
end

