-- ==== Sys2Proof/Decode.lean ====
section
/-! DEFINITION. The decoder, total on all 2^32 words and rejecting by name, the encoder, and the opcode map
(spec/30_encoding.md R85 to R90). -/

namespace Sys2Proof

/-- Why a word is illegal (R89). -/
inductive DecodeRefusal where
  /-- The opcode is in no row of R88. -/
  | unlistedOpcode (op : Byte)
  /-- A listed opcode with a nonzero must-be-zero field. -/
  | nonzeroUnusedField (op : Byte)
  deriving DecidableEq, Repr

/-- `op = W[31:24]` (R86). -/
def opField (w : Word) : Byte := w.extractLsb' 24 8

/-- `a = W[23:8]` (R86). -/
def aField (w : Word) : Half := w.extractLsb' 8 16

/-- `b = W[7:0]` (R86). -/
def bField (w : Word) : Byte := w.extractLsb' 0 8

/-- Format Z: `a` and `b` must be zero (R86). -/
def decodeZ (w : Word) (i : Instr) : Except DecodeRefusal Instr :=
  if aField w = 0 ∧ bField w = 0 then .ok i else .error (.nonzeroUnusedField (opField w))

/-- Format B1: `a` and `b[7:1]` must be zero; the operand is `b[0]`, 1 = true (R86, R87). -/
def decodeB1 (w : Word) (mk : Bool → Instr) : Except DecodeRefusal Instr :=
  if aField w = 0 ∧ (bField w).extractLsb' 1 7 = 0 then .ok (mk ((bField w).getLsbD 0))
  else .error (.nonzeroUnusedField (opField w))

/-- Format B: `a` must be zero; the operand is `b` (R86). -/
def decodeB (w : Word) (mk : Nat → Instr) : Except DecodeRefusal Instr :=
  if aField w = 0 then .ok (mk (bField w).toNat) else .error (.nonzeroUnusedField (opField w))

/-- Format A: `b` must be zero; the operand is `a` (R86). -/
def decodeA (w : Word) (mk : Nat → Instr) : Except DecodeRefusal Instr :=
  if bField w = 0 then .ok (mk (aField w).toNat) else .error (.nonzeroUnusedField (opField w))

/-- Format AB: the operands are `a` and `b` (R86). -/
def decodeAB (w : Word) (mk : Nat → Byte → Instr) : Except DecodeRefusal Instr :=
  .ok (mk (aField w).toNat (bField w))

/-- The decoder, by opcode and format (R86, R88); every other word is illegal (R89). -/
def decode (w : Word) : Except DecodeRefusal Instr :=
  if opField w = 0x01 then decodeZ w .sysinit
  else if opField w = 0x10 then decodeB1 w .encode
  else if opField w = 0x11 then decodeZ w .bufinit
  else if opField w = 0x12 then decodeAB w .bufwr
  else if opField w = 0x13 then decodeA w .bufrd
  else if opField w = 0x20 then decodeZ w .tcfg
  else if opField w = 0x21 then decodeZ w .tstart
  else if opField w = 0x30 then decodeZ w .dcfg
  else if opField w = 0x31 then decodeZ w .darm
  else if opField w = 0x40 then decodeB w .rdcr
  else .error (.unlistedOpcode (opField w))

/-- A command word put together from its three fields, `op` in the high bits (R86). -/
def commandWord (op : Byte) (a : Half) (b : Byte) : Word := op ++ a ++ b

/-- The word of a well-formed instruction (R86, R88). -/
def encode : Instr → Word
  | .sysinit => commandWord 0x01 0 0
  | .encode bit => commandWord 0x10 0 ((BitVec.ofBool bit).setWidth 8)
  | .bufinit => commandWord 0x11 0 0
  | .bufwr idx val => commandWord 0x12 (BitVec.ofNat 16 idx) val
  | .bufrd idx => commandWord 0x13 (BitVec.ofNat 16 idx) 0
  | .tcfg => commandWord 0x20 0 0
  | .tstart => commandWord 0x21 0 0
  | .dcfg => commandWord 0x30 0 0
  | .darm => commandWord 0x31 0 0
  | .rdcr n => commandWord 0x40 0 (BitVec.ofNat 8 n)

/-- The row of the opcode map (R88) an instruction stands in, match and mask as printed there. -/
def opcodeRow : Instr → OpcodeRow
  | .sysinit => ⟨0x01000000, 0xFFFFFFFF⟩
  | .encode _ => ⟨0x10000000, 0xFFFFFFFE⟩
  | .bufinit => ⟨0x11000000, 0xFFFFFFFF⟩
  | .bufwr _ _ => ⟨0x12000000, 0xFF000000⟩
  | .bufrd _ => ⟨0x13000000, 0xFF0000FF⟩
  | .tcfg => ⟨0x20000000, 0xFFFFFFFF⟩
  | .tstart => ⟨0x21000000, 0xFFFFFFFF⟩
  | .dcfg => ⟨0x30000000, 0xFFFFFFFF⟩
  | .darm => ⟨0x31000000, 0xFFFFFFFF⟩
  | .rdcr _ => ⟨0x40000000, 0xFFFFFF00⟩

/-- The ten rows of R88, in the table's order. -/
def opcodeMap : List OpcodeRow :=
  [opcodeRow .sysinit, opcodeRow (.encode false), opcodeRow .bufinit, opcodeRow (.bufwr 0 0),
   opcodeRow (.bufrd 0), opcodeRow .tcfg, opcodeRow .tstart, opcodeRow .dcfg, opcodeRow .darm,
   opcodeRow (.rdcr 0)]

/-- A word is the command of a row exactly when `W & mask = match` (R88). -/
def OpcodeRow.matchesWord (r : OpcodeRow) (w : Word) : Bool := w &&& r.mask == r.pattern

/-- What the decoder reads from the opcode-table word `w` of `nbits` bits: commands have one length, 32 bits,
and no byte order (R85, R63), so the table's number is the command word itself. -/
def decodeTableWord (nbits w : Nat) : Option Instr :=
  if nbits ≤ 32 ∧ w < 2 ^ nbits then
    match decode (BitVec.ofNat 32 w) with
    | .ok i => some i
    | .error _ => none
  else none

end Sys2Proof
end

