-- ==== Sys2Proof/Config.lean ====
section
/-! DEFINITION. The configuration record `CFG` (spec/00_scope.md R5 to R7), the agents of a run (R10), and the
free values: constants without a body, of which nothing can be proved. -/

namespace Sys2Proof

/-- The agents that take steps (R10): the firmware, the Carrier Timer, the DMA Streaming Engine, and the
environment, whose only step is `RESET` (R240). -/
inductive Agent where
  | host
  | timer
  | dma
  | environment
  deriving DecidableEq, Repr, Inhabited

/-- The part of `CFG` (R5) that the steps read, held in the state: constants for the life of the model, written by
no command.  `Cfg` below is the whole record.  `LOW` and `HIGH` are bytes because `encode : Bool -> Byte` (R110;
DEDUCED, log 2).  The other fields are plain integers so that the configurations TCFG rejects (R141, R212) can be
expressed. -/
structure Config where
  /-- `LED_COUNT`, legal range 1 .. 2730. -/
  ledCount : Nat
  /-- `BUF_LEN`, legal only as `24*LED_COUNT + 2`. -/
  bufLen   : Nat
  /-- `PERIOD`, counter ticks in a carrier period, legal range 2 .. 256. -/
  period   : Nat
  /-- `LOW`, the duration code of a logical 0. -/
  low      : Byte
  /-- `HIGH`, the duration code of a logical 1. -/
  high     : Byte
  /-- `PRESCALE`, input clocks per tick, legal range 1 .. 255. -/
  prescale : Nat
  deriving DecidableEq, Repr

/-- `SENT_LEAD`, the value of buffer entry 0 (R5: 8-bit constant 255; log 15). -/
def Config.sentLead : Byte := 255

/-- `SENT_TRAIL`, the value of the last buffer entry (R5: 8-bit constant 0). -/
def Config.sentTrail : Byte := 0

/-- The FULL profile (R5, R7) for a chain of `n` LEDs: `PERIOD = 30`, `LOW = 10`, `HIGH = 19`, `PRESCALE = 1`. -/
def Config.full (n : Nat) : Config :=
  { ledCount := n, bufLen := 24 * n + 2, period := 30, low := 10, high := 19, prescale := 1 }

/-- The configuration of the state after reset.  `LED_COUNT` is OPEN in R5: one LED is the model's choice
(DESIGN CHOICE, log 1); statements quantify over the configuration instead of resting on it. -/
def Config.atReset : Config := Config.full 1

/-- FREE VALUE: the byte `any8` that the `n`-th draw gives (R9, R75): a read of an unwritten entry. -/
opaque Config.freeByte : Nat → Byte

/-- FREE VALUE: the agent that moves next where the schedule held in the state is used up (R11 "the order is
otherwise free"). -/
opaque Config.freeAgent : Nat → Agent

/-- FREE VALUE: what `CR.D_LEN` holds after DCFG with a `BUF_LEN` that does not fit its 16 bits; the spec
states no result there (log 10). -/
opaque Config.unstatedLen : Nat → Half

/-- `CFG` whole (R5): the parameters the steps read and the three reals no rule depends on, OPEN in R5 and so
arguments.  A state is plain data and cannot hold a real, so it holds the part `toConfig` (log 16). -/
structure Cfg extends Config where
  /-- `F_IN`, the frequency of the timer's input clock in Hz. -/
  inputClock : ℝ
  /-- `T_LATCH`, how long the line must stay low between frames for the strip to latch, in seconds. -/
  latchTime : ℝ
  /-- `REFRESH_INTERVAL`, the time gate of the refresh policy in one firmware variant, in milliseconds. -/
  refreshInterval : ℝ

/-- The FULL profile for `n` LEDs with the three OPEN reals given. -/
def Cfg.full (n : Nat) (inputClock latchTime refreshInterval : ℝ) : Cfg :=
  { Config.full n with
    inputClock := inputClock, latchTime := latchTime, refreshInterval := refreshInterval }

/-- One tick lasts `PRESCALE / F_IN` seconds (R150); no step reads it (R260).  Where `F_IN = 0` the quotient has no
value, and a tick has no duration (DESIGN CHOICE, log 16). -/
def Cfg.tickLasts (c : Cfg) (seconds : ℝ) : Prop :=
  c.inputClock ≠ 0 ∧ seconds = c.prescale / c.inputClock

end Sys2Proof
end

