-- ==== Sys2Proof/Machine/State.lean ====
section
/-! DEFINITION. The state of the block (spec/10_state.md R20 to R46), the fields the model adds to it, and the
reasons a step can stop. -/

namespace Sys2Proof.Machine

/-- The Carrier Timer's state (R35, R140). -/
inductive TState where
  | idle
  | configured
  | running
  deriving DecidableEq, Repr

/-- The fault codes of R212 (`raise Fault(code)`): recorded in `CR1 FAULT`, after which the block goes on. -/
inductive FaultCode where
  | illegalCommand
  | cfgDuration
  | cfgBufLen
  | cfgProfile
  | bootOrder
  | stateOrder
  | bufIndex
  | reArmInFlight
  | regIndex
  | unwrittenRead
  deriving DecidableEq, Repr

/-- Whether a recorded buffer access is a read or a write. -/
inductive AccessKind where
  | read
  | write
  deriving DecidableEq, Repr

/-- One entry of the history of buffer accesses: "its agent (`host` or `dma`), its index and its value" (R75). -/
structure Access where
  agent : Agent
  kind  : AccessKind
  index : Nat
  value : Byte
  deriving DecidableEq, Repr

/-- The duration buffer `BUF` with its written-marks (R43, R44): the written entries, by strictly rising
index.  An index that is not listed has mark `false`. -/
abbrev Memory := List Host.Cell

/-- Every piece of state of R20, then the fields the model adds to run it. -/
structure State where
  /-- `CFG` (R5), its part that the steps read, constant: no step writes it (log 1, log 16). -/
  cfg      : Config
  /-- `BUF` and its written-marks (R43, R44). -/
  mem      : Memory
  /-- `SYS_READY`, `STATUS[0]` (R42). -/
  sysReady : Bool
  /-- `TSTATE`, `STATUS[2:1]` (R35). -/
  tstate   : TState
  /-- `CR1 FAULT` (R26). -/
  fault    : Byte
  /-- `CR2 T_TOP` (R27). -/
  tTop     : Byte
  /-- `CR3 T_PSC` (R28). -/
  tPsc     : Byte
  /-- `CR4 T_CNT` (R29). -/
  tCnt     : Byte
  /-- `CR5 T_CHA` (R30). -/
  tCha     : Byte
  /-- `CR6 T_CHB` (R31). -/
  tChb     : Byte
  /-- `CR7 T_CCB` (R32). -/
  tCcb     : Byte
  /-- `CR8 PINSEL` (R33). -/
  pinsel   : Byte
  /-- `OUT`, `STATUS[6]` (R34). -/
  out      : Bool
  /-- `CR9 D_CTL` (R36). -/
  dCtl     : Byte
  /-- `CR10/11 D_LEN` (R37). -/
  dLen     : Half
  /-- `CR12/13 D_SRC` (R38). -/
  dSrc     : Half
  /-- `CR14/15 D_REM` (R39). -/
  dRem     : Half
  /-- `D_CFGD`, `STATUS[3]` (R40). -/
  dCfgd    : Bool
  /-- `ARMED`, `STATUS[4]` (R40). -/
  armed    : Bool
  /-- `DREQ`, `STATUS[5]` (R41). -/
  dreq     : Bool
  /-- MODEL'S OWN: the response of the latest host command, an output of its step (R95; log 6). -/
  resp     : Option Byte
  /-- MODEL'S OWN: the command words the host has still to present, in program order (R85; log 5). -/
  program  : List Word
  /-- MODEL'S OWN: which agents take the next steps, in order (R11; log 3). -/
  sched    : List Agent
  /-- MODEL'S OWN: how many free values have been drawn (log 3, log 7). -/
  draws    : Nat
  /-- MODEL'S OWN: the history of buffer accesses, newest first (R75; log 11). -/
  history  : List Access
  deriving DecidableEq, Repr

/-- Why a step stops the model.  The spec's own faults are no such stop: they are recorded and the block goes
on (R211; log 8). -/
inductive Fault where
  /-- An access to an index `>= BUF_LEN` by a step that has no index check of its own: "an index
  `>= BUF_LEN` addresses nothing" (R61), and the access primitives are defined below `BUF_LEN` only (R75).
  Raised by BUFINIT where `BUF_LEN = 0`, and by `DMAXFER` in states no run reaches (R169).  Safe (log 9). -/
  | noSuchCell (index : Nat)
  deriving DecidableEq, Repr

/-- Why a step has no meaning.  Every instruction has one, so nothing raises this. -/
inductive Refusal where
  /-- Kept for the interface: an instruction whose arm of `exec` gives it no meaning.  Raised by none.  Safe. -/
  | notModelled (mnemonic : String)
  deriving DecidableEq, Repr

/-- The outcome of a step of this machine. -/
abbrev Outcome := Host.Outcome State Fault Refusal

/-- The state after RESET (R46, R240) under a configuration: every register and flag 0, the timer Idle, no
buffer entry written; the model's own fields empty (log 12). -/
def State.resetWith (c : Config) : State :=
  { cfg := c, mem := [], sysReady := false, tstate := .idle, fault := 0
    tTop := 0, tPsc := 0, tCnt := 0, tCha := 0, tChb := 0, tCcb := 0, pinsel := 0, out := false
    dCtl := 0, dLen := 0, dSrc := 0, dRem := 0, dCfgd := false, armed := false, dreq := false
    resp := none, program := [], sched := [], draws := 0, history := [] }

/-- The state after RESET under the whole record `CFG` (R5); the three reals, which no rule reads, are not in it. -/
def State.resetUnder (c : Cfg) : State := State.resetWith c.toConfig

/-- The machine right after reset (R46), in the FULL profile with one LED (log 1). -/
def State.reset : State := State.resetWith Config.atReset

end Sys2Proof.Machine
end

