-- ==== Sys2Proof/Machine/Ops.lean ====
section
/-! DEFINITION. The named operations over the buffer and the registers, and the fault outcome
(spec/20_memory.md R75, spec/60_exceptions.md R211, R212). -/

namespace Sys2Proof.Machine

/-- What an index that is not listed reads as: nothing; the entry has never been written (R44). -/
def Memory.unlisted : Option Byte := none

/-- The value and written-mark of one buffer entry: `some` byte where it is written, else `none`. -/
def Memory.read : Memory → Nat → Option Byte
  | [], _ => Memory.unlisted
  | (j, b) :: rest, i => if i = j then some b else Memory.read rest i

/-- Store one byte, keeping the indices strictly rising. -/
def Memory.write : Memory → Nat → Byte → Memory
  | [], i, v => [(i, v)]
  | (j, b) :: rest, i, v =>
    if i < j then (i, v) :: (j, b) :: rest
    else if i = j then (i, v) :: rest
    else (j, b) :: Memory.write rest i v

/-- The canonical form: indices strictly rising.  (A listed entry is never equal to what an unlisted one
reads as, since the latter has no value.) -/
def Memory.wf : Memory → Bool
  | [] => true
  | [_] => true
  | (i, _) :: (j, b) :: rest => decide (i < j) && Memory.wf ((j, b) :: rest)

/-- The number R212 gives a fault. -/
def FaultCode.toByte : FaultCode → Byte
  | .illegalCommand => 1
  | .cfgDuration => 2
  | .cfgBufLen => 3
  | .cfgProfile => 4
  | .bootOrder => 5
  | .stateOrder => 6
  | .bufIndex => 7
  | .reArmInFlight => 8
  | .regIndex => 9
  | .unwrittenRead => 10

/-- `if CR.FAULT = 0 then CR.FAULT <- code` (R211): the first fault since reset is kept. -/
def recordFault (code : FaultCode) (s : State) : State :=
  if s.fault = 0 then { s with fault := code.toByte } else s

/-- The state in which `raise Fault(code)` leaves the block (R211): nothing is written but `FAULT`, and no
response is handed back. -/
def faultState (code : FaultCode) (s : State) : State := { recordFault code s with resp := none }

/-- `raise Fault(code)` (R211), the taking of a fault: the block goes on.  No state is saved and there is no
return from it (R210, R215, R216): only RESET clears `FAULT`. -/
def raiseFault (code : FaultCode) (s : State) : Outcome := .next (faultState code s)

/-- A host command that completes and hands back nothing (R95). -/
def finish (s : State) : Outcome := .next { s with resp := none }

/-- A host command that completes and hands back one byte (R95). -/
def respond (b : Byte) (s : State) : Outcome := .next { s with resp := some b }

/-- Record one buffer access in the history (R75). -/
def noteAccess (who : Agent) (kind : AccessKind) (i : Nat) (v : Byte) (s : State) : State :=
  { s with history := ⟨who, kind, i, v⟩ :: s.history }

/-- `MemWrite(i, 1, v)` (R75): the byte is stored and the entry marked written.  Callers check the index. -/
def memWrite (who : Agent) (i : Nat) (v : Byte) (s : State) : State :=
  noteAccess who .write i v { s with mem := s.mem.write i v }

/-- `MemRead(i, 1)` (R75): a written entry gives its byte; an unwritten one gives `any8` and records fault 10,
and the calling step goes on.  Callers check the index. -/
def memRead (who : Agent) (i : Nat) (s : State) : Byte × State :=
  match s.mem.read i with
  | some b => (b, noteAccess who .read i b s)
  | none =>
    (Config.freeByte s.draws,
     noteAccess who .read i (Config.freeByte s.draws)
       (recordFault .unwrittenRead { s with draws := s.draws + 1 }))

end Sys2Proof.Machine
end

