-- ==== Sys2Proof/Machine/Operands.lean ====
section
/-! DEFINITION. The operand forms (spec/44_refresh_driver.md R197): the absolute buffer index, the constant
index 0, the source offset `D_SRC`, the absolute register number, and the index arithmetic of the frame
layout (spec/41_frame_composer.md R121). -/

namespace Sys2Proof.Machine

/-- The index addresses an entry of the buffer: `i < BUF_LEN` (R61). -/
def indexInBuffer (s : State) (i : Nat) : Bool := decide (i < s.cfg.bufLen)

/-- The register number addresses a control register: `n < 16` (R62). -/
def registerExists (n : Nat) : Bool := decide (n < 16)

/-- BUFINIT's effective address: the constant index 0 (R197). -/
def leadingIndex : Nat := 0

/-- `DMAXFER`'s source: register-indirect through `D_SRC` (R197). -/
def sourceIndex (s : State) : Nat := s.dSrc.toNat

/-- The post-increment of the source offset (R169, R197); it wraps only in states no run reaches (DEDUCED,
log 14). -/
def advanceSource (src : Half) : Half := src + 1

/-- One byte fewer to copy (R169). -/
def countDown (rem : Half) : Half := rem - 1

/-- The value DCFG writes to `CR.D_LEN`: `BUF_LEN` (R166).  A `BUF_LEN` of 2^16 or more does not fit, and the
spec states no result: the value is free (log 10). -/
def lengthRegister (c : Config) : Half :=
  if c.bufLen < 65536 then BitVec.ofNat 16 c.bufLen else Config.unstatedLen c.bufLen

/-- `idx(i, c, k) = 1 + 24*i + 8*c + k` (R121). -/
def dataIndex (i c k : Nat) : Nat := 1 + 24 * i + 8 * c + k

/-- The index of the trailing sentinel, `BUF_LEN - 1` (R120).  The subtraction is that of the naturals, so the
index is 0 where `BUF_LEN = 0`, a configuration outside R5 (DESIGN CHOICE, log 25). -/
def trailingIndex (c : Config) : Nat := c.bufLen - 1

end Sys2Proof.Machine
end

