-- ==== Sys2Proof/Machine/Buffer.lean ====
section
/-! DEFINITION. The buffer commands BUFINIT, BUFWR and BUFRD (spec/41_frame_composer.md R122 to R124). -/

namespace Sys2Proof.Machine

/-- `BUFINIT` (R122): `MemWrite(0, 1, SENT_LEAD)`, enabled in every state. -/
def execBufinit (s : State) : Outcome :=
  if indexInBuffer s leadingIndex then finish (memWrite .host leadingIndex Config.sentLead s)
  else .fault (.noSuchCell leadingIndex)

/-- `BUFWR idx, val` (R123): fault 7 outside the buffer, else any byte at any index, in flight or not. -/
def execBufwr (idx : Nat) (val : Byte) (s : State) : Outcome :=
  if indexInBuffer s idx then finish (memWrite .host idx val s) else raiseFault .bufIndex s

/-- `BUFRD idx` (R124): fault 7 outside the buffer; the byte read is the response, also where it is `any8`
(R95). -/
def execBufrd (idx : Nat) (s : State) : Outcome :=
  if indexInBuffer s idx then respond (memRead .host idx s).1 (memRead .host idx s).2
  else raiseFault .bufIndex s

end Sys2Proof.Machine
end

