-- ==== Sys2Proof/Machine/Flags.lean ====
section
/-! DEFINITION. The status view, the fields of the configuration registers, and the computations of the
counter, the pin, the DMA request and the armed flag (spec/10_state.md R25 to R41,
spec/42_carrier_timer.md R143 to R145, spec/43_dma_streamer.md R169). -/

namespace Sys2Proof.Machine

/-- The number of a timer state, 0, 1 or 2 (R25, R35). -/
def TState.code : TState → BitVec 2
  | .idle => 0
  | .configured => 1
  | .running => 2

/-- `FAULTED`, `STATUS[7]`: 1 exactly when `CR.FAULT != 0` (R25). -/
def faulted (s : State) : Bool := decide (s.fault ≠ 0)

/-- `CR0 STATUS`, assembled at the moment of the read (R25), bit 7 first. -/
def status (s : State) : Byte :=
  BitVec.ofBool (faulted s) ++ BitVec.ofBool s.out ++ BitVec.ofBool s.dreq ++ BitVec.ofBool s.armed
    ++ BitVec.ofBool s.dCfgd ++ s.tstate.code ++ BitVec.ofBool s.sysReady

/-- The low byte of a 16-bit register pair, at the lower register number (R24, R63). -/
def lowByte (h : Half) : Byte := h.extractLsb' 0 8

/-- The high byte of a 16-bit register pair (R24, R63). -/
def highByte (h : Half) : Byte := h.extractLsb' 8 8

/-- `CR[n]` for `n` in 0 .. 15 (R24).  Numbers above 15 address nothing (R62): RDCR faults on them before it
reads. -/
def readCr (s : State) (n : Nat) : Byte :=
  match n with
  | 0 => status s
  | 1 => s.fault
  | 2 => s.tTop
  | 3 => s.tPsc
  | 4 => s.tCnt
  | 5 => s.tCha
  | 6 => s.tChb
  | 7 => s.tCcb
  | 8 => s.pinsel
  | 9 => s.dCtl
  | 10 => lowByte s.dLen
  | 11 => highByte s.dLen
  | 12 => lowByte s.dSrc
  | 13 => highByte s.dSrc
  | 14 => lowByte s.dRem
  | 15 => highByte s.dRem
  | _ => 0

/-- `EN`, bit 0 of `T_CHA` and of `T_CHB` (R30, R31). -/
def channelEnabled (r : Byte) : Bool := r.getLsbD 0

/-- `IM`, bit 1 of `T_CHA` and of `T_CHB`: the channel's event interrupts the CPU (R30, R31). -/
def channelInterrupts (r : Byte) : Bool := r.getLsbD 1

/-- `TRIG`, bit 2 of `T_CHA`: the rollover is a DMA trigger (R30). -/
def channelTriggers (r : Byte) : Bool := r.getLsbD 2

/-- `OUTMODE`, bits 3:2 of `T_CHB` (R31). -/
def outMode (r : Byte) : BitVec 2 := r.extractLsb' 2 2

/-- `PSEL`, bit 0 of `PINSEL` (R33). -/
def pinSelected (r : Byte) : Bool := r.getLsbD 0

/-- `TRIGSEL`, bit 0 of `D_CTL` (R36). -/
def trigSel (r : Byte) : Bool := r.getLsbD 0

/-- `PRIO`, bits 2:1 of `D_CTL` (R36). -/
def priority (r : Byte) : BitVec 2 := r.extractLsb' 1 2

/-- `SRCINC`, bit 3 of `D_CTL` (R36). -/
def sourceIncrements (r : Byte) : Bool := r.getLsbD 3

/-- `DSTINC`, bit 4 of `D_CTL` (R36). -/
def destIncrements (r : Byte) : Bool := r.getLsbD 4

/-- `WSIZE`, bit 5 of `D_CTL`: 0 = byte (R36). -/
def wordSized (r : Byte) : Bool := r.getLsbD 5

/-- `IRQEN`, bit 6 of `D_CTL`: completion interrupts the CPU (R36). -/
def completionInterrupts (r : Byte) : Bool := r.getLsbD 6

/-- `REPEAT`, bit 7 of `D_CTL`: 0 = single-shot (R36). -/
def repeats (r : Byte) : Bool := r.getLsbD 7

/-- An interrupt of this block is enabled somewhere (the three enables of R214). -/
def interruptEnabled (s : State) : Bool :=
  channelInterrupts s.tCha || channelInterrupts s.tChb || completionInterrupts s.dCtl

/-- The level the block drives the pin to: `OUT` while `PSEL = 1`; otherwise the block does not drive the pin
and its level is outside the spec (R33, R34, R220; log 18). -/
def pinLevel (s : State) : Option Bool := if pinSelected s.pinsel then some s.out else none

/-- The tick on which the counter returns to 0 (R143). -/
def rollsOver (s : State) : Bool := decide (s.tCnt = s.tTop)

/-- The counter after one tick (R143). -/
def nextCount (s : State) : Byte := if rollsOver s then 0 else s.tCnt + 1

/-- Channel B's output after the counter has come to `n` (R145): the clear wins over the set. -/
def nextOut (n ccb : Byte) (out : Bool) : Bool :=
  if n = ccb then false else if n = 0 then true else out

/-- The DMA request after a tick (R144): raised by a rollover that finds the engine armed. -/
def nextRequest (s : State) : Bool := if rollsOver s && s.armed then true else s.dreq

/-- `if CR.D_REM = 0 then CR.ARMED <- 0` (R169), for the new remaining count. -/
def stillArmed (rem : Half) (armed : Bool) : Bool := if rem = 0 then false else armed

end Sys2Proof.Machine
end

