-- ==== Sys2Proof/Machine/Profile.lean ====
section
/-! DEFINITION. The checks of a configuration (spec/00_scope.md R6) and the order in which TCFG makes them
(spec/42_carrier_timer.md R141). -/

namespace Sys2Proof.Machine

/-- R6(a): `HIGH < PERIOD and LOW < PERIOD`. -/
def durationsFit (c : Config) : Bool := decide (c.high.toNat < c.period ∧ c.low.toNat < c.period)

/-- R6(b): `BUF_LEN = 24*LED_COUNT + 2`. -/
def lengthFits (c : Config) : Bool := decide (c.bufLen = 24 * c.ledCount + 2)

/-- R6(c) and R6(d): the codes are ordered and positive, and every parameter is in its legal range. -/
def profileFits (c : Config) : Bool :=
  decide (c.low.toNat < c.high.toNat ∧ 1 ≤ c.low.toNat ∧ 2 ≤ c.period ∧ c.period ≤ 256
    ∧ 1 ≤ c.prescale ∧ c.prescale ≤ 255 ∧ 1 ≤ c.ledCount ∧ c.ledCount ≤ 2730)

/-- `ConfigValid(CFG)` (R6). -/
def configValid (c : Config) : Bool := durationsFit c && lengthFits c && profileFits c

/-- The first configuration check that fails, in TCFG's order 2, 3, 4 (R141, R213). -/
def configError (c : Config) : Option FaultCode :=
  if !durationsFit c then some .cfgDuration
  else if !lengthFits c then some .cfgBufLen
  else if !profileFits c then some .cfgProfile
  else none

end Sys2Proof.Machine
end

