-- ==== Sys2Proof/Machine/Dma.lean ====
section
/-! DEFINITION. The DMA Streaming Engine: DCFG, DARM and the autonomous step `DMAXFER`
(spec/43_dma_streamer.md R165 to R177). -/

namespace Sys2Proof.Machine

/-- `DCFG` (R166): fault 6 while armed, fault 3 on a wrong buffer length, else the channel is configured.
There is no test for code 4 (DEDUCED, log 21). -/
def execDcfg (s : State) : Outcome :=
  if s.armed then raiseFault .stateOrder s
  else if !lengthFits s.cfg then raiseFault .cfgBufLen s
  else finish { s with dCtl := 0x0D, dLen := lengthRegister s.cfg, dCfgd := true }

/-- `DARM` (R167): fault 6 when not configured, fault 8 in flight (R173), else the engine is armed at index 0. -/
def execDarm (s : State) : Outcome :=
  if !s.dCfgd then raiseFault .stateOrder s
  else if s.armed then raiseFault .reArmInFlight s
  else finish { s with dSrc := 0, dRem := s.dLen, armed := true }

/-- `DMAXFER` is enabled exactly when `ARMED = 1` and `DREQ = 1` (R169). -/
def dmaEnabled (s : State) : Bool := s.armed && s.dreq

/-- The writes of `DMAXFER` after the byte `v` has been read (R169). -/
def moveByte (v : Byte) (s : State) : State :=
  { s with
    tCcb := v
    dSrc := advanceSource s.dSrc
    dRem := countDown s.dRem
    dreq := false
    armed := stillArmed (countDown s.dRem) s.armed }

/-- `DMAXFER` (R169): one byte from the source offset into the compare register.  An offset outside the
buffer occurs in no run (R45(e)) and stops by name. -/
def dmaxfer (s : State) : Outcome :=
  if indexInBuffer s (sourceIndex s) then
    .next (moveByte (memRead .dma (sourceIndex s) s).1 (memRead .dma (sourceIndex s) s).2)
  else .fault (.noSuchCell (sourceIndex s))

end Sys2Proof.Machine
end

