-- ==== Sys2Proof/Machine/Encoder.lean ====
section
/-! DEFINITION. The Duration Encoder: the lookup and ENCODE (spec/40_duration_encoder.md R110, R111). -/

namespace Sys2Proof.Machine

/-- `encode(b) = if b = 1 then HIGH else LOW` (R110): total, stateless, no check of the configuration. -/
def durationCode (c : Config) (b : Bool) : Byte := if b then c.high else c.low

/-- `ENCODE bit` (R111): answers in every state, writes none. -/
def execEncode (bit : Bool) (s : State) : Outcome := respond (durationCode s.cfg bit) s

end Sys2Proof.Machine
end

