-- ==== Sys2Proof/Machine/System.lean ====
section
/-! DEFINITION. SYSINIT, RDCR (spec/44_refresh_driver.md R190, R191) and the environment's `RESET`
(spec/70_reset_and_hazards.md R240). -/

namespace Sys2Proof.Machine

/-- `SYSINIT` (R190): the board initialisation has run. -/
def execSysinit (s : State) : Outcome := finish { s with sysReady := true }

/-- `RDCR n` (R191): fault 9 for `n >= 16`, else the register's byte, with no side effect (R66). -/
def execRdcr (n : Nat) (s : State) : Outcome :=
  if registerExists n then respond (readCr s n) s else raiseFault .regIndex s

/-- `RESET` (R240): every piece of state to its value of R46.  The configuration, the host's remaining
commands, the schedule, the draw counter and the history are not state of the block and stay (log 12). -/
def resetBlock (s : State) : State :=
  { State.resetWith s.cfg with
    program := s.program, sched := s.sched, draws := s.draws, history := s.history }

end Sys2Proof.Machine
end

