-- ==== Sys2Proof/Machine/Timer.lean ====
section
/-! DEFINITION. The Carrier Timer: TCFG, TSTART and the autonomous step `TICK` (spec/42_carrier_timer.md R140
to R148). -/

namespace Sys2Proof.Machine

/-- What TCFG programs (R141, R27 to R33): the five registers and `TSTATE`. -/
def programTimer (s : State) : State :=
  { s with
    tTop := BitVec.ofNat 8 (s.cfg.period - 1)
    tPsc := BitVec.ofNat 8 s.cfg.prescale
    tCha := 0x05
    tChb := 0x05
    pinsel := 0x01
    tstate := .configured }

/-- `TCFG` (R141): the tests 5, 6, 2, 3, 4 in that order, then `Idle -> Configured`. -/
def execTcfg (s : State) : Outcome :=
  if !s.sysReady then raiseFault .bootOrder s
  else if s.tstate ≠ .idle then raiseFault .stateOrder s
  else
    match configError s.cfg with
    | some code => raiseFault code s
    | none => finish (programTimer s)

/-- `TSTART` (R142): `Configured -> Running` with the counter at 0; the output is not evaluated. -/
def execTstart (s : State) : Outcome :=
  if s.tstate ≠ .configured then raiseFault .stateOrder s
  else finish { s with tCnt := 0, tstate := .running }

/-- `TICK` is enabled exactly when `TSTATE = Running` and `DREQ = 0` (R147). -/
def tickEnabled (s : State) : Bool := decide (s.tstate = .running) && !s.dreq

/-- `TICK` (R146): the counter, then the compare against `T_CCB` as it stands, then the trigger.
It consults no configuration field (DEDUCED, log 20) and takes no time (R260; log 22). -/
def tick (s : State) : State :=
  { s with
    tCnt := nextCount s
    out := nextOut (nextCount s) s.tCcb s.out
    dreq := nextRequest s }

end Sys2Proof.Machine
end

