-- ==== Sys2Proof/Machine/Dispatch.lean ====
section
/-! DEFINITION. One arm per command: each calls its meaning. -/

namespace Sys2Proof.Machine

def exec (i : Instr) (s : State) : Host.Outcome State Fault Refusal :=
  match i with
  | .sysinit => Sys2Proof.Machine.execSysinit s
  | .encode bit => Sys2Proof.Machine.execEncode bit s
  | .bufinit => Sys2Proof.Machine.execBufinit s
  | .bufwr idx val => Sys2Proof.Machine.execBufwr idx val s
  | .bufrd idx => Sys2Proof.Machine.execBufrd idx s
  | .tcfg => Sys2Proof.Machine.execTcfg s
  | .tstart => Sys2Proof.Machine.execTstart s
  | .dcfg => Sys2Proof.Machine.execDcfg s
  | .darm => Sys2Proof.Machine.execDarm s
  | .rdcr n => Sys2Proof.Machine.execRdcr n s

end Sys2Proof.Machine
end

