-- ==== Sys2Proof/Machine/Schedule.lean ====
section
/-! DEFINITION. Which agent moves, and what one step of it is (spec/00_scope.md R10, R11). -/

namespace Sys2Proof.Machine

/-- The agent that takes the next step: the head of the schedule, and beyond its end a free choice (R11;
log 3). -/
def nextAgent (s : State) : Agent × State :=
  match s.sched with
  | a :: rest => (a, { s with sched := rest })
  | [] => (Config.freeAgent s.draws, { s with draws := s.draws + 1 })

/-- The block takes one command word: it decodes and executes it, or raises fault 1 on an illegal one
(R85, R89). -/
def present (w : Word) (s : State) : Outcome :=
  match decode w with
  | .ok i => exec i s
  | .error _ => raiseFault .illegalCommand s

/-- One step of the host: the next command of its program (R11).  With no command left the host has no step,
and nothing happens (log 4). -/
def hostStep (s : State) : Outcome :=
  match s.program with
  | w :: rest => present w { s with program := rest }
  | [] => .next s

/-- One step of an agent.  An agent whose step is not enabled has none, and nothing happens (R9 `require`;
log 4).  A host step may come between the `TICK` that raised a request and its `DMAXFER`, and finds the engine
still armed then (R11, R169; DEDUCED, log 26). -/
def agentStep (a : Agent) (s : State) : Outcome :=
  match a with
  | .host => hostStep s
  | .timer => if tickEnabled s then .next (tick s) else .next s
  | .dma => if dmaEnabled s then dmaxfer s else .next s
  | .environment => .next (resetBlock s)

end Sys2Proof.Machine
end

