-- ==== Sys2Proof/Machine/Step.lean ====
section
/-! DEFINITION. One step of the machine, and the state whose next step runs a given word. -/

namespace Sys2Proof.Machine

/-- One step: the agent whose turn it is takes its step (R11). -/
def step (s : State) : Host.Outcome State Fault Refusal :=
  agentStep (nextAgent s).1 (nextAgent s).2

/-- `s` with the opcode-table word `w` as the host's next command and the host as the next agent to move: the
load of a program from outside (log 5). -/
def State.withFetchWord (s : State) (nbits w : Nat) : State :=
  { s with program := BitVec.ofNat 32 (w % 2 ^ nbits) :: s.program, sched := .host :: s.sched }

end Sys2Proof.Machine
end

