-- ==== Sys2Proof/Machine/Driver.lean ====
section
/-! DEFINITION. The Frame Composer's pattern and the pseudo-instructions COMPOSE, LEDINIT, REFRESH and SERVICE,
as the command sequences they expand to (spec/30_encoding.md R92, spec/41_frame_composer.md R125 to R128,
spec/44_refresh_driver.md R192 to R194). -/

namespace Sys2Proof.Machine

/-- The colour of one LED, a triple in the order green, red, blue (R126, R128). -/
structure Led where
  green : Byte
  red   : Byte
  blue  : Byte
  deriving DecidableEq, Repr

/-- Channel 0 is green, 1 is red, 2 is blue (R121, R128). -/
def Led.channel (p : Led) (c : Nat) : Byte :=
  match c with
  | 0 => p.green
  | 1 => p.red
  | _ => p.blue

/-- "The pattern length must equal LED_COUNT" (R126). -/
def patternFits (c : Config) (pattern : List Led) : Bool := decide (pattern.length = c.ledCount)

/-- The bit of channel byte `v` sent at position `k`: `v[7-k]`, most significant first (R128). -/
def sentBit (v : Byte) (k : Nat) : Bool := v.getLsbD (7 - k)

/-- The eight BUFWR commands of channel `ch` of LED `i` (R125). -/
def channelWrites (c : Config) (i ch : Nat) (v : Byte) : List Instr :=
  (List.range 8).map fun k => .bufwr (dataIndex i ch k) (durationCode c (sentBit v k))

/-- The 24 BUFWR commands of LED `i` (R125). -/
def ledWrites (c : Config) (i : Nat) (p : Led) : List Instr :=
  (List.range 3).flatMap fun ch => channelWrites c i ch (p.channel ch)

/-- The data writes of the LEDs from number `i` on, in chain order (R125). -/
def frameWrites (c : Config) : Nat → List Led → List Instr
  | _, [] => []
  | i, p :: rest => ledWrites c i p ++ frameWrites c (i + 1) rest

/-- `COMPOSE` (R125): the data writes, then the trailing sentinel.  The assembler refuses a pattern of another
length than LED_COUNT (R126).  The expansion is not checked against the 16-bit index field: with a `BUF_LEN` above
2^16, outside R5, it holds indices that `encode` truncates (DESIGN CHOICE, log 24); its last index where
`BUF_LEN = 0` is log 25. -/
def compose (c : Config) (pattern : List Led) : Option (List Instr) :=
  if patternFits c pattern then
    some (frameWrites c 0 pattern ++ [.bufwr (trailingIndex c) Config.sentTrail])
  else none

/-- `LEDINIT` (R192). -/
def ledinit : List Instr := [.bufinit, .tcfg, .dcfg, .tstart]

/-- `REFRESH pattern` (R193): COMPOSE, then DARM, and nothing else. -/
def refresh (c : Config) (pattern : List Led) : Option (List Instr) :=
  (compose c pattern).map fun writes => writes ++ [.darm]

/-- `SERVICE pattern` (R194): nothing, or REFRESH; the choice is free at each call, so it is an argument
(DEDUCED, log 17).  Where the choice is nothing the pattern is not looked at, so one of the wrong length is
accepted and stands for no command (DESIGN CHOICE, log 23). -/
def service (wanted : Bool) (c : Config) (pattern : List Led) : Option (List Instr) :=
  if wanted then refresh c pattern else some []

/-- The command words of a sequence, in program order (R92: the expansion has no encoding of its own). -/
def commandWords (is : List Instr) : List Word := is.map encode

/-- The commands of a sequence executed one after the other, with no other agent's step between them. -/
def runCommands : List Instr → State → Outcome
  | [], s => .next s
  | i :: rest, s =>
    match exec i s with
    | .next t => runCommands rest t
    | .fault r => .fault r
    | .refused r => .refused r

/-- `TICK*n` (R94): `n` ticks, each followed by the `DMAXFER` it enables, if any.  Every request is served before
the list ends, so a host step between the last `TICK` and its `DMAXFER` is not among the runs of `ticks n`
(DEDUCED, log 26). -/
def ticks : Nat → List Agent
  | 0 => []
  | n + 1 => .timer :: .dma :: ticks n

/-- One tick per pair, as in `ticks`, with host steps around it: `a` before the `TICK` and `b` between the `TICK`
and the `DMAXFER` turn (R11: a host command may stand there). -/
def paced : List (Nat × Nat) → List Agent
  | [] => []
  | (a, b) :: rest => List.replicate a .host ++ .timer :: (List.replicate b .host ++ .dma :: paced rest)

end Sys2Proof.Machine
end

