-- ==== Sys2Proof/Machine/Assembler.lean ====
section
/-! DEFINITION. The assembler (spec/30_encoding.md R91, R92): one command or pseudo-instruction per line, the
mnemonic in capitals, operands separated by commas, numbers decimal or `0x` hexadecimal, `;` a comment. -/

namespace Sys2Proof.Machine

/-- The tokens of a line. -/
inductive Token where
  | name (letters : List Char)
  | number (n : Nat)
  | comma
  | opening
  | closing
  deriving DecidableEq, Repr

/-- The value of a decimal digit. -/
def decimalDigit (c : Char) : Option Nat :=
  if 48 ≤ c.toNat ∧ c.toNat ≤ 57 then some (c.toNat - 48) else none

/-- The value of a hexadecimal digit, either case. -/
def hexDigit (c : Char) : Option Nat :=
  if 48 ≤ c.toNat ∧ c.toNat ≤ 57 then some (c.toNat - 48)
  else if 65 ≤ c.toNat ∧ c.toNat ≤ 70 then some (c.toNat - 55)
  else if 97 ≤ c.toNat ∧ c.toNat ≤ 102 then some (c.toNat - 87)
  else none

/-- Digits to a number, most significant first. -/
def numeral (base : Nat) (digit : Char → Option Nat) : Nat → List Char → Option Nat
  | acc, [] => some acc
  | acc, c :: rest =>
    match digit c with
    | some d => numeral base digit (acc * base + d) rest
    | none => none

/-- The letter may stand in a mnemonic: a capital (R91). -/
def isCapital (c : Char) : Bool := decide (65 ≤ c.toNat ∧ c.toNat ≤ 90)

/-- One run of letters and digits as a token: a hexadecimal number, a decimal number, or a mnemonic. -/
def wordToken (w : List Char) : Option Token :=
  match w with
  | '0' :: 'x' :: d :: ds => (numeral 16 hexDigit 0 (d :: ds)).map .number
  | c :: rest =>
    if (decimalDigit c).isSome then (numeral 10 decimalDigit 0 (c :: rest)).map .number
    else if (c :: rest).all isCapital then some (.name (c :: rest))
    else none
  | [] => none

/-- Put the word gathered so far (its letters reversed) before the tokens that follow it. -/
def flushWord (gathered : List Char) (rest : Option (List Token)) : Option (List Token) :=
  match gathered, rest with
  | [], r => r
  | _ :: _, none => none
  | g :: gs, some ts => (wordToken (g :: gs).reverse).map fun t => t :: ts

/-- The tokens of a line; `;` starts a comment (R91).  Blanks, tabs and the case of digits: DESIGN CHOICE,
log 13. -/
def tokens : List Char → List Char → Option (List Token)
  | gathered, [] => flushWord gathered (some [])
  | gathered, c :: rest =>
    if c = ';' then flushWord gathered (some [])
    else if c = ' ' ∨ c = '\t' then flushWord gathered (tokens [] rest)
    else if c = ',' then flushWord gathered ((tokens [] rest).map (Token.comma :: ·))
    else if c = '(' then flushWord gathered ((tokens [] rest).map (Token.opening :: ·))
    else if c = ')' then flushWord gathered ((tokens [] rest).map (Token.closing :: ·))
    else tokens (c :: gathered) rest

/-- A number that fits a byte operand; the assembler refuses another (R91). -/
def byteOperand (n : Nat) : Option Byte := if n < 256 then some (BitVec.ofNat 8 n) else none

/-- The triple of one LED (R92). -/
def ledOperand (g r b : Nat) : Option Led :=
  match byteOperand g, byteOperand r, byteOperand b with
  | some g', some r', some b' => some ⟨g', r', b'⟩
  | _, _, _ => none

/-- A pattern operand: one or more triples `(g, r, b)` separated by commas (R92).  An empty list of triples is
refused, also where `LED_COUNT = 0`, a configuration outside R5 in which it has the right length (DESIGN CHOICE,
log 27). -/
def patternOperand : List Token → Option (List Led)
  | [.opening, .number g, .comma, .number r, .comma, .number b, .closing] =>
    (ledOperand g r b).map fun p => [p]
  | .opening :: .number g :: .comma :: .number r :: .comma :: .number b :: .closing :: .comma :: rest =>
    match ledOperand g r b, patternOperand rest with
    | some p, some ps => some (p :: ps)
    | _, _ => none
  | _ => none

/-- One instruction whose operands must fit their fields (R91). -/
def fitting (i : Instr) : Option (List Instr) := if i.wellFormed then some [i] else none

/-- A bit operand: 0 or 1 (R91). -/
def encodeLine (n : Nat) : Option (List Instr) :=
  if n = 0 then some [.encode false] else if n = 1 then some [.encode true] else none

/-- The commands a line's tokens stand for; an empty line stands for none.  SERVICE's choice is `wanted`
(R194). -/
def commandLine (c : Config) (wanted : Bool) : List Token → Option (List Instr)
  | [] => some []
  | .name m :: ops =>
    if m = ['S', 'Y', 'S', 'I', 'N', 'I', 'T'] then if ops = [] then some [.sysinit] else none
    else if m = ['B', 'U', 'F', 'I', 'N', 'I', 'T'] then if ops = [] then some [.bufinit] else none
    else if m = ['T', 'C', 'F', 'G'] then if ops = [] then some [.tcfg] else none
    else if m = ['T', 'S', 'T', 'A', 'R', 'T'] then if ops = [] then some [.tstart] else none
    else if m = ['D', 'C', 'F', 'G'] then if ops = [] then some [.dcfg] else none
    else if m = ['D', 'A', 'R', 'M'] then if ops = [] then some [.darm] else none
    else if m = ['L', 'E', 'D', 'I', 'N', 'I', 'T'] then if ops = [] then some ledinit else none
    else if m = ['E', 'N', 'C', 'O', 'D', 'E'] then
      match ops with
      | [.number n] => encodeLine n
      | _ => none
    else if m = ['B', 'U', 'F', 'W', 'R'] then
      match ops with
      | [.number i, .comma, .number v] =>
        match byteOperand v with
        | some b => fitting (.bufwr i b)
        | none => none
      | _ => none
    else if m = ['B', 'U', 'F', 'R', 'D'] then
      match ops with
      | [.number i] => fitting (.bufrd i)
      | _ => none
    else if m = ['R', 'D', 'C', 'R'] then
      match ops with
      | [.number n] => fitting (.rdcr n)
      | _ => none
    else if m = ['C', 'O', 'M', 'P', 'O', 'S', 'E'] then
      match patternOperand ops with
      | some p => compose c p
      | none => none
    else if m = ['R', 'E', 'F', 'R', 'E', 'S', 'H'] then
      match patternOperand ops with
      | some p => refresh c p
      | none => none
    else if m = ['S', 'E', 'R', 'V', 'I', 'C', 'E'] then
      match patternOperand ops with
      | some p => service wanted c p
      | none => none
    else none
  | _ => none

/-- Assemble one line of text into the commands it stands for, or refuse it (R91, R92). -/
def assembleLine (c : Config) (wanted : Bool) (line : List Char) : Option (List Instr) :=
  match tokens [] line with
  | some ts => commandLine c wanted ts
  | none => none

end Sys2Proof.Machine
end

