-- ==== Sys2Proof/Safety.lean ====
section
/-! DEFINITION. What a good state and a safe run are, the state invariant (spec/10_state.md R45), and the
"left unchanged" predicates statements are written with. -/

namespace Sys2Proof.Machine

/-- `n` steps, stopping at the first fault or refusal. -/
def runSteps : Nat → State → Outcome
  | 0, s => .next s
  | n + 1, s =>
    match step s with
    | .next t => runSteps n t
    | .fault r => .fault r
    | .refused r => .refused r

/-- No step has faulted since reset: "a faulted state is never a good final state" (R211). -/
def State.clean (s : State) : Prop := s.fault = 0

/-- *Quiescent for the stream* (R12). -/
def State.quiescent (s : State) : Prop := s.armed = false ∧ s.dreq = false

/-- A safe run of `n` steps: no step stops, and the state reached is clean. -/
def safeRun (n : Nat) (s : State) : Prop := ∃ t, runSteps n s = .next t ∧ t.clean

/-- The invariant of the state: R45 clause by clause, with what makes it inductive.  `legalCount` is the
legal range of `LED_COUNT` (R5), without which `BUF_LEN` need not fit `D_LEN`. -/
structure StateInv (s : State) : Prop where
  legalCount : s.cfg.ledCount ≤ 2730
  /-- The buffer keeps its canonical form. -/
  canonical : s.mem.wf = true
  /-- Only entries of the buffer are written (R61). -/
  insideBuffer : ∀ c ∈ s.mem, c.1 < s.cfg.bufLen
  /-- R45(b). -/
  programmed : s.tstate ≠ .idle →
    s.tTop.toNat = s.cfg.period - 1 ∧ s.tPsc.toNat = s.cfg.prescale ∧ s.tCha = 0x05 ∧ s.tChb = 0x05
      ∧ s.pinsel = 0x01 ∧ s.sysReady = true ∧ configValid s.cfg = true
  /-- Before TCFG the timer's registers hold their reset values (R24, U9). -/
  unprogrammed : s.tstate = .idle →
    s.tTop = 0 ∧ s.tPsc = 0 ∧ s.tCha = 0 ∧ s.tChb = 0 ∧ s.pinsel = 0
  /-- R45(c). -/
  notRunning : s.tstate ≠ .running →
    s.tCnt = 0 ∧ s.out = false ∧ s.tCcb = 0 ∧ s.dreq = false ∧ s.dSrc = 0
  /-- R29: the counter stays in range. -/
  counting : s.tstate = .running → s.tCnt.toNat ≤ s.tTop.toNat
  /-- R45(d), with the length DCFG tested for (R166). -/
  configured : s.dCfgd = true →
    s.dCtl = 0x0D ∧ s.dLen.toNat = s.cfg.bufLen ∧ s.cfg.bufLen = 24 * s.cfg.ledCount + 2
  /-- Before DCFG the engine's registers hold their reset values (R24, U9). -/
  unconfigured : s.dCfgd = false → s.dCtl = 0 ∧ s.dLen = 0 ∧ s.dSrc = 0
  /-- R45(e). -/
  inFlight : s.armed = true →
    s.dCfgd = true ∧ 1 ≤ s.dRem.toNat ∧ s.dRem.toNat ≤ s.dLen.toNat
      ∧ s.dSrc.toNat = s.dLen.toNat - s.dRem.toNat
  /-- R45(f). -/
  atRest : s.armed = false → s.dRem = 0 ∧ (s.dSrc = 0 ∨ s.dSrc = s.dLen)
  /-- R45(g). -/
  requested : s.dreq = true → s.armed = true ∧ s.tstate = .running ∧ s.tCnt = 0
  /-- R212: codes 11 to 255 are unused. -/
  knownFault : s.fault.toNat ≤ 10

/-- The layout a transfer needs for the waveform of R174: a nonzero leading sentinel, every data entry in
`1 .. T_TOP`, a trailing 0 (R120, R248). -/
structure LaidOut (s : State) : Prop where
  leading : ∃ b, s.mem.read 0 = some b ∧ b ≠ 0
  data : ∀ k, 1 ≤ k → k + 1 < s.cfg.bufLen →
    ∃ b, s.mem.read k = some b ∧ 1 ≤ b.toNat ∧ b.toNat ≤ s.tTop.toNat
  trailing : s.mem.read (s.cfg.bufLen - 1) = some 0

/-- Nothing outside the block changed: the configuration, the host's remaining program, the schedule. -/
def sameOutside (s t : State) : Prop := t.cfg = s.cfg ∧ t.program = s.program ∧ t.sched = s.sched

/-- No register or latch of the Carrier Timer changed (R27 to R35). -/
def sameTimer (s t : State) : Prop :=
  t.tstate = s.tstate ∧ t.tTop = s.tTop ∧ t.tPsc = s.tPsc ∧ t.tCnt = s.tCnt ∧ t.tCha = s.tCha
    ∧ t.tChb = s.tChb ∧ t.tCcb = s.tCcb ∧ t.pinsel = s.pinsel ∧ t.out = s.out

/-- No register or flag of the DMA Streaming Engine changed (R36 to R41). -/
def sameEngine (s t : State) : Prop :=
  t.dCtl = s.dCtl ∧ t.dLen = s.dLen ∧ t.dSrc = s.dSrc ∧ t.dRem = s.dRem ∧ t.dCfgd = s.dCfgd
    ∧ t.armed = s.armed ∧ t.dreq = s.dreq

/-- Every buffer entry has the value and the written-mark it had (R43, R44). -/
def sameBuffer (s t : State) : Prop := ∀ i, t.mem.read i = s.mem.read i

/-- Every buffer entry but `j` has the value and the written-mark it had. -/
def sameBufferBut (j : Nat) (s t : State) : Prop := ∀ i, i ≠ j → t.mem.read i = s.mem.read i

/-- No buffer access was made and no free value drawn. -/
def sameRecord (s t : State) : Prop := t.draws = s.draws ∧ t.history = s.history

/-- `FAULT` after a fault `code` (R211): the first code since reset stays. -/
def stickyFault (old code : Byte) : Byte := if old = 0 then code else old

/-- `raise Fault(code)` happened and nothing else (R211). -/
def faultedWith (code : Byte) (s t : State) : Prop :=
  t.fault = stickyFault s.fault code ∧ t.resp = none ∧ t.sysReady = s.sysReady ∧ sameTimer s t
    ∧ sameEngine s t ∧ sameBuffer s t ∧ sameRecord s t ∧ sameOutside s t

/-- The agent whose turn it is. -/
def moving (s : State) : Agent := (nextAgent s).1

/-- The command the host presents in its turn, if it has one left and its word is legal. -/
def presented (s : State) : Option Instr :=
  match s.program with
  | w :: _ =>
    match decode w with
    | .ok i => some i
    | .error _ => none
  | [] => none

/-- The step about to be taken is the execution of the host command `i`. -/
def hostRuns (i : Instr) (s : State) : Prop := moving s = .host ∧ presented s = some i

end Sys2Proof.Machine
end

