-- ==== Sys2Proof/Certificates/Slice0/Obligations.lean ====
section
/-! DEFINITION. The statements about the model, for the provers. -/

open Sys2Proof Sys2Proof.Machine

/-! ### Encoding -/

/-- One word of each family, written out from R86 and R88 (`op` in bits 31:24, `a` in 23:8, `b` in 7:0), and
two illegal ones of R89. -/
def Obligations.SpecWordsDecode : Prop :=
  decode 0b00000001_00000000_00000000_00000000#32 = .ok .sysinit
    ∧ decode 0b00010000_00000000_00000000_00000001#32 = .ok (.encode true)
    ∧ decode 0b00010010_00000001_10011001_00010011#32 = .ok (.bufwr 409 19)
    ∧ decode 0b00100001_00000000_00000000_00000000#32 = .ok .tstart
    ∧ decode 0b00110001_00000000_00000000_00000000#32 = .ok .darm
    ∧ decode 0b01000000_00000000_00000000_00001110#32 = .ok (.rdcr 14)
    ∧ decode 0b00000000_00000000_00000000_00000000#32 = .error (.unlistedOpcode 0)
    ∧ decode 0b00010000_00000000_00000000_00000010#32 = .error (.nonzeroUnusedField 0x10)

/-- Decoding the word of a well-formed instruction gives it back: no operand bit is dropped. -/
def Obligations.DecodeOfEncode : Prop :=
  ∀ i : Instr, i.wellFormed = true → decode (encode i) = .ok i

/-- A legal word is the one word of a well-formed instruction. -/
def Obligations.EncodeOfDecode : Prop :=
  ∀ (w : Word) (i : Instr), decode w = .ok i → i.wellFormed = true ∧ encode i = w

/-- R88: a word is a row's command exactly when `W & mask = match`, over all 2^32 words and all ten rows; the
rows are disjoint, since the word's instruction, and so its row, is one. -/
def Obligations.WordIsCommandExactlyWhenItMatchesItsRow : Prop :=
  ∀ (w : Word) (row : OpcodeRow), row ∈ opcodeMap →
    (row.matchesWord w = true ↔ ∃ i : Instr, decode w = .ok i ∧ opcodeRow i = row)

/-- R89 with R211: a word that matches no row of R88 raises fault 1 when presented, and changes nothing else. -/
def Obligations.WordMatchingNoRowRaisesFaultOne : Prop :=
  ∀ (s : State) (w : Word) (ws : List Word) (as : List Agent),
    s.sched = .host :: as → s.program = w :: ws →
    (∀ row ∈ opcodeMap, row.matchesWord w = false) →
    ∃ t, step s = .next t ∧ faultedWith 1 { s with sched := as, program := ws } t

/-! ### A step -/

/-- When it is the host's turn and its next word decodes to `i`, the step is `exec i`, with the word and the
turn used up (R11, R85). -/
def Obligations.StepRunsTheDecodedCommand : Prop :=
  ∀ (s : State) (w : Word) (ws : List Word) (as : List Agent) (i : Instr),
    s.sched = .host :: as → s.program = w :: ws → decode w = .ok i →
    step s = exec i { s with sched := as, program := ws }

/-- An agent whose step is not enabled has none: its turn passes and nothing changes (R147, R169, R11; that
such a turn passes is the model's choice, log 4). -/
def Obligations.DisabledAgentDoesNothing : Prop :=
  ∀ (s : State) (as : List Agent),
    (s.sched = .timer :: as → (s.tstate ≠ .running ∨ s.dreq = true) → step s = .next { s with sched := as })
    ∧ (s.sched = .dma :: as → (s.armed = false ∨ s.dreq = false) → step s = .next { s with sched := as })
    ∧ (s.sched = .host :: as → s.program = [] → step s = .next { s with sched := as })

/-- R218: the host may issue every command in every state, and the block answers each with a next state
(R211: also where it faults).  The buffer has an entry in every configuration that DCFG accepts. -/
def Obligations.EveryCommandIsAnsweredInEveryState : Prop :=
  ∀ (i : Instr) (s : State), 0 < s.cfg.bufLen → ∃ t, exec i s = .next t

/-! ### The commands -/

/-- R190: the flag is set, nothing else is written, no step but RESET clears it; TCFG needs it, and no other
command faults for want of it. -/
def Obligations.SysinitSetsReady : Prop :=
  decode 0x01000000#32 = .ok .sysinit
  ∧ (∀ s : State, ∃ t, exec .sysinit s = .next t
      ∧ t.sysReady = true ∧ t.resp = none ∧ t.fault = s.fault
      ∧ sameTimer s t ∧ sameEngine s t ∧ sameBuffer s t ∧ sameRecord s t ∧ sameOutside s t)
  ∧ (∀ c : Config, ∃ t, exec .sysinit (State.resetWith c) = .next t ∧ readCr t 0 = 0x01)
  ∧ (∀ s t : State, step s = .next t → moving s ≠ .environment → s.sysReady = true → t.sysReady = true)
  ∧ (∀ s : State, s.sysReady = false → ∃ t, exec .tcfg s = .next t ∧ faultedWith 5 s t)
  ∧ ∀ (i : Instr) (s : State), i ≠ .tcfg → 0 < s.cfg.bufLen →
      ∃ t u, exec i s = .next t ∧ exec i { s with sysReady := !s.sysReady } = .next u ∧ u.fault = t.fault

/-- R110, R111: the lookup, in every state and under every configuration, writing none; a word of this opcode
with another bit set is not this command; and the document's two literals. -/
def Obligations.EncodeAnswersTheDurationCode : Prop :=
  decode 0x10000000#32 = .ok (.encode false) ∧ decode 0x10000001#32 = .ok (.encode true)
  ∧ (∀ (bit : Bool) (s : State), ∃ t, exec (.encode bit) s = .next t
      ∧ t.resp = some (if bit = true then s.cfg.high else s.cfg.low)
      ∧ t.fault = s.fault ∧ t.sysReady = s.sysReady
      ∧ sameTimer s t ∧ sameEngine s t ∧ sameBuffer s t ∧ sameRecord s t ∧ sameOutside s t)
  ∧ (∀ w : Word, opField w = 0x10 → w.extractLsb' 1 23 ≠ 0 → ∃ e, decode w = .error e)
  ∧ ∀ n, durationCode (Config.full n) true = 19 ∧ durationCode (Config.full n) false = 10

/-- R112 (a) to (d): what `ConfigValid` gives the two codes; and the bound `PERIOD >= 3` that R6 derives, met
by the smallest valid configuration. -/
def Obligations.ValidCodesAreOrderedPositiveAndBelowThePeriod : Prop :=
  (∀ c : Config, configValid c = true →
    (durationCode c false).toNat < (durationCode c true).toNat
    ∧ (∀ b, (durationCode c b).toNat < c.period) ∧ (∀ b, 1 ≤ (durationCode c b).toNat)
    ∧ (∀ v, (∃ b, durationCode c b = v) ↔ v = c.low ∨ v = c.high)
    ∧ 3 ≤ c.period)
  ∧ ∀ n, 1 ≤ n → n ≤ 2730 → configValid ⟨n, 24 * n + 2, 3, 1, 2, 1⟩ = true

/-- R122, for a buffer that has an entry 0. -/
def Obligations.BufinitWritesTheLeadingSentinel : Prop :=
  decode 0x11000000#32 = .ok .bufinit
  ∧ ∀ s : State, 0 < s.cfg.bufLen → ∃ t, exec .bufinit s = .next t
      ∧ t.mem.read 0 = some 255 ∧ sameBufferBut 0 s t
      ∧ t.history = ⟨.host, .write, 0, 255⟩ :: s.history ∧ t.draws = s.draws
      ∧ t.resp = none ∧ t.fault = s.fault ∧ t.sysReady = s.sysReady
      ∧ sameTimer s t ∧ sameEngine s t ∧ sameOutside s t

/-- R123: any byte at any index of the buffer; fault 7 outside it. -/
def Obligations.BufwrStoresTheByteOrFaultsSeven : Prop :=
  (∀ (idx : Nat) (val : Byte), idx < 65536 →
      decode (0x12000000#32 ||| (BitVec.ofNat 32 idx <<< 8) ||| val.setWidth 32) = .ok (.bufwr idx val))
  ∧ ∀ (idx : Nat) (val : Byte) (s : State),
      (idx < s.cfg.bufLen → ∃ t, exec (.bufwr idx val) s = .next t
        ∧ t.mem.read idx = some val ∧ sameBufferBut idx s t
        ∧ t.history = ⟨.host, .write, idx, val⟩ :: s.history ∧ t.draws = s.draws
        ∧ t.resp = none ∧ t.fault = s.fault ∧ t.sysReady = s.sysReady
        ∧ sameTimer s t ∧ sameEngine s t ∧ sameOutside s t)
      ∧ (s.cfg.bufLen ≤ idx → ∃ t, exec (.bufwr idx val) s = .next t ∧ faultedWith 7 s t)

/-- R124 with R75: a written entry is the response; an unwritten one gives some byte, the same that the
history records, and fault 10; an index outside the buffer gives fault 7 and no response. -/
def Obligations.BufrdAnswersTheEntry : Prop :=
  (∀ idx : Nat, idx < 65536 →
      decode (0x13000000#32 ||| (BitVec.ofNat 32 idx <<< 8)) = .ok (.bufrd idx))
  ∧ ∀ (idx : Nat) (s : State),
      (idx < s.cfg.bufLen → ∃ t v, exec (.bufrd idx) s = .next t ∧ t.resp = some v
        ∧ (∀ b, s.mem.read idx = some b → v = b ∧ t.fault = s.fault)
        ∧ (s.mem.read idx = none → t.fault = stickyFault s.fault 10)
        ∧ t.history = ⟨.host, .read, idx, v⟩ :: s.history
        ∧ t.sysReady = s.sysReady ∧ sameBuffer s t ∧ sameTimer s t ∧ sameEngine s t ∧ sameOutside s t)
      ∧ (s.cfg.bufLen ≤ idx → ∃ t, exec (.bufrd idx) s = .next t ∧ faultedWith 7 s t)

/-- R141: the five tests in their order (R213), then `Idle -> Configured`. -/
def Obligations.TcfgTestsThenProgramsTheTimer : Prop :=
  decode 0x20000000#32 = .ok .tcfg
  ∧ ∀ s : State,
    (s.sysReady = false → ∃ t, exec .tcfg s = .next t ∧ faultedWith 5 s t)
    ∧ (s.sysReady = true → s.tstate ≠ .idle → ∃ t, exec .tcfg s = .next t ∧ faultedWith 6 s t)
    ∧ (s.sysReady = true → s.tstate = .idle →
        (¬ (s.cfg.high.toNat < s.cfg.period ∧ s.cfg.low.toNat < s.cfg.period) →
          ∃ t, exec .tcfg s = .next t ∧ faultedWith 2 s t)
        ∧ (s.cfg.high.toNat < s.cfg.period → s.cfg.low.toNat < s.cfg.period →
            s.cfg.bufLen ≠ 24 * s.cfg.ledCount + 2 →
            ∃ t, exec .tcfg s = .next t ∧ faultedWith 3 s t)
        ∧ (s.cfg.high.toNat < s.cfg.period → s.cfg.low.toNat < s.cfg.period →
            s.cfg.bufLen = 24 * s.cfg.ledCount + 2 →
            ¬ (s.cfg.low.toNat < s.cfg.high.toNat ∧ 1 ≤ s.cfg.low.toNat ∧ 2 ≤ s.cfg.period
              ∧ s.cfg.period ≤ 256 ∧ 1 ≤ s.cfg.prescale ∧ s.cfg.prescale ≤ 255
              ∧ 1 ≤ s.cfg.ledCount ∧ s.cfg.ledCount ≤ 2730) →
            ∃ t, exec .tcfg s = .next t ∧ faultedWith 4 s t)
        ∧ (configValid s.cfg = true → ∃ t, exec .tcfg s = .next t
            ∧ t.tTop.toNat = s.cfg.period - 1 ∧ t.tPsc.toNat = s.cfg.prescale
            ∧ t.tCha = 0x05 ∧ t.tChb = 0x05 ∧ t.pinsel = 0x01 ∧ t.tstate = .configured
            ∧ channelEnabled t.tCha = true ∧ channelInterrupts t.tCha = false ∧ channelTriggers t.tCha = true
            ∧ channelEnabled t.tChb = true ∧ channelInterrupts t.tChb = false ∧ outMode t.tChb = 1
            ∧ t.tCnt = s.tCnt ∧ t.tCcb = s.tCcb ∧ t.out = s.out
            ∧ t.resp = none ∧ t.fault = s.fault ∧ t.sysReady = s.sysReady
            ∧ sameEngine s t ∧ sameBuffer s t ∧ sameRecord s t ∧ sameOutside s t))

/-- R142: the transition and its frame; fault 6 in the other two states; and the first rollover is the
`PERIOD`-th tick: `m` ticks after TSTART, for every `m` up to `T_TOP`, the counter shows `m` and no request has
been raised. -/
def Obligations.TstartRunsTheCounterOrFaultsSix : Prop :=
  decode 0x21000000#32 = .ok .tstart
  ∧ ∀ s : State,
    (s.tstate = .configured → ∃ t, exec .tstart s = .next t
      ∧ t.tstate = .running ∧ t.tCnt = 0 ∧ t.out = s.out ∧ t.tCcb = s.tCcb
      ∧ t.tTop = s.tTop ∧ t.tPsc = s.tPsc ∧ t.tCha = s.tCha ∧ t.tChb = s.tChb ∧ t.pinsel = s.pinsel
      ∧ t.resp = none ∧ t.fault = s.fault ∧ t.sysReady = s.sysReady
      ∧ sameEngine s t ∧ sameBuffer s t ∧ sameRecord s t ∧ sameOutside s t)
    ∧ (s.tstate ≠ .configured → ∃ t, exec .tstart s = .next t ∧ faultedWith 6 s t)
    ∧ ∀ (t : State) (m : Nat) (rest : List Agent), s.tstate = .configured → s.dreq = false →
        exec .tstart s = .next t → m ≤ s.tTop.toNat →
        ∃ u, runSteps m { t with sched := List.replicate m .timer ++ rest } = .next u
          ∧ u.tCnt.toNat = m ∧ u.dreq = false ∧ u.sched = rest

/-- R166: the two tests in their order (R213), then the channel is configured.  Two clauses are the model's
choices: DCFG accepts a profile that R6's prose says is reported with code 4 (DEDUCED, log 21), and a `BUF_LEN`
that does not fit the 16 bits of `D_LEN` leaves its value open while everything else still happens (DESIGN
CHOICE, log 10). -/
def Obligations.DcfgTestsThenConfiguresTheEngine : Prop :=
  decode 0x30000000#32 = .ok .dcfg
  ∧ ∀ s : State,
    (s.armed = true → ∃ t, exec .dcfg s = .next t ∧ faultedWith 6 s t)
    ∧ (s.armed = false → s.cfg.bufLen ≠ 24 * s.cfg.ledCount + 2 →
        ∃ t, exec .dcfg s = .next t ∧ faultedWith 3 s t)
    ∧ (s.armed = false → s.cfg.bufLen = 24 * s.cfg.ledCount + 2 → ∃ t, exec .dcfg s = .next t
        ∧ t.dCtl = 0x0D ∧ trigSel t.dCtl = true ∧ priority t.dCtl = 2 ∧ sourceIncrements t.dCtl = true
        ∧ destIncrements t.dCtl = false ∧ wordSized t.dCtl = false
        ∧ completionInterrupts t.dCtl = false ∧ repeats t.dCtl = false
        ∧ (s.cfg.bufLen < 65536 → t.dLen.toNat = s.cfg.bufLen) ∧ t.dCfgd = true
        ∧ t.dSrc = s.dSrc ∧ t.dRem = s.dRem ∧ t.armed = s.armed ∧ t.dreq = s.dreq
        ∧ t.resp = none ∧ t.fault = s.fault ∧ t.sysReady = s.sysReady
        ∧ sameTimer s t ∧ sameBuffer s t ∧ sameRecord s t ∧ sameOutside s t)

/-- R167 and R173: the two tests in their order, then the engine is armed at index 0; arming in flight is
fault 8 and leaves the transfer undisturbed. -/
def Obligations.DarmTestsThenArmsTheEngine : Prop :=
  decode 0x31000000#32 = .ok .darm
  ∧ ∀ s : State,
    (s.dCfgd = false → ∃ t, exec .darm s = .next t ∧ faultedWith 6 s t)
    ∧ (s.dCfgd = true → s.armed = true → ∃ t, exec .darm s = .next t ∧ faultedWith 8 s t)
    ∧ (s.dCfgd = true → s.armed = false → ∃ t, exec .darm s = .next t
        ∧ t.dSrc = 0 ∧ t.dRem = s.dLen ∧ t.armed = true
        ∧ t.dCtl = s.dCtl ∧ t.dLen = s.dLen ∧ t.dCfgd = s.dCfgd ∧ t.dreq = s.dreq
        ∧ t.resp = none ∧ t.fault = s.fault ∧ t.sysReady = s.sysReady
        ∧ sameTimer s t ∧ sameBuffer s t ∧ sameRecord s t ∧ sameOutside s t)

/-- R191: for `n < 16` the byte of register `n`, nothing written; fault 9 above.  The sixteen registers are
written out as R24 numbers them: `STATUS` assembled by R25, bit 7 first, and each 16-bit pair with its low byte at
the lower number (R63). -/
def Obligations.RdcrAnswersTheRegisterOrFaultsNine : Prop :=
  (∀ n : Nat, n < 256 → decode (0x40000000#32 ||| BitVec.ofNat 32 n) = .ok (.rdcr n))
  ∧ ∀ (n : Nat) (s : State),
      (n < 16 → ∃ t, exec (.rdcr n) s = .next t
        ∧ t.resp =
            [BitVec.ofBool (decide (s.fault ≠ 0)) ++ BitVec.ofBool s.out ++ BitVec.ofBool s.dreq
                ++ BitVec.ofBool s.armed ++ BitVec.ofBool s.dCfgd
                ++ (if s.tstate = .running then 2#2 else if s.tstate = .configured then 1#2 else 0#2)
                ++ BitVec.ofBool s.sysReady,
             s.fault, s.tTop, s.tPsc, s.tCnt, s.tCha, s.tChb, s.tCcb, s.pinsel, s.dCtl,
             BitVec.ofNat 8 (s.dLen.toNat % 256), BitVec.ofNat 8 (s.dLen.toNat / 256),
             BitVec.ofNat 8 (s.dSrc.toNat % 256), BitVec.ofNat 8 (s.dSrc.toNat / 256),
             BitVec.ofNat 8 (s.dRem.toNat % 256), BitVec.ofNat 8 (s.dRem.toNat / 256)][n]?
        ∧ t.resp = some (readCr s n)
        ∧ t.fault = s.fault ∧ t.sysReady = s.sysReady
        ∧ sameTimer s t ∧ sameEngine s t ∧ sameBuffer s t ∧ sameRecord s t ∧ sameOutside s t)
      ∧ (16 ≤ n → ∃ t, exec (.rdcr n) s = .next t ∧ faultedWith 9 s t)

/-- R25: the eight bits of `CR0 STATUS`, and its value after reset. -/
def Obligations.StatusShowsEachFlagAtItsBit : Prop :=
  (∀ c : Config, readCr (State.resetWith c) 0 = 0) ∧ ∀ s : State,
    (readCr s 0).getLsbD 0 = s.sysReady
    ∧ ((readCr s 0).extractLsb' 1 2 = 0 ↔ s.tstate = .idle)
    ∧ ((readCr s 0).extractLsb' 1 2 = 1 ↔ s.tstate = .configured)
    ∧ ((readCr s 0).extractLsb' 1 2 = 2 ↔ s.tstate = .running)
    ∧ (readCr s 0).extractLsb' 1 2 ≠ 3
    ∧ (readCr s 0).getLsbD 3 = s.dCfgd ∧ (readCr s 0).getLsbD 4 = s.armed
    ∧ (readCr s 0).getLsbD 5 = s.dreq ∧ (readCr s 0).getLsbD 6 = s.out
    ∧ ((readCr s 0).getLsbD 7 = true ↔ s.fault ≠ 0)

/-- The register file and the buffer show the whole state of the block: two states that read alike in every
register and every buffer entry agree in every piece of state (R20, R24, R63). -/
def Obligations.RegistersShowTheWholeState : Prop :=
  ∀ s t : State, (∀ n, n < 16 → readCr t n = readCr s n) →
    t.sysReady = s.sysReady ∧ t.fault = s.fault ∧ sameTimer s t ∧ sameEngine s t

/-- The model's named stop, log 9: an access to entry 0 of a buffer without entries, and a source offset
outside the buffer (which no run reaches). -/
def Obligations.AccessOutsideTheBufferStops : Prop :=
  (∀ s : State, s.cfg.bufLen = 0 → exec .bufinit s = .fault (.noSuchCell 0))
  ∧ ∀ (s : State) (as : List Agent), s.sched = .dma :: as → s.armed = true → s.dreq = true →
      s.cfg.bufLen ≤ s.dSrc.toNat → step s = .fault (.noSuchCell s.dSrc.toNat)

/-! ### The autonomous steps and RESET -/

/-- R143 to R146: the counter, the compare against the old `T_CCB`, the trigger. -/
def Obligations.TickCountsComparesAndTriggers : Prop :=
  ∀ (s : State) (as : List Agent), s.sched = .timer :: as → s.tstate = .running → s.dreq = false →
    ∃ t, step s = .next t
      ∧ (s.tCnt = s.tTop → t.tCnt = 0) ∧ (s.tCnt ≠ s.tTop → t.tCnt = s.tCnt + 1)
      ∧ (t.tCnt = s.tCcb → t.out = false)
      ∧ (t.tCnt ≠ s.tCcb → t.tCnt = 0 → t.out = true)
      ∧ (t.tCnt ≠ s.tCcb → t.tCnt ≠ 0 → t.out = s.out)
      ∧ (t.dreq = true ↔ s.tCnt = s.tTop ∧ s.armed = true)
      ∧ t.tstate = s.tstate ∧ t.tTop = s.tTop ∧ t.tPsc = s.tPsc ∧ t.tCha = s.tCha ∧ t.tChb = s.tChb
      ∧ t.tCcb = s.tCcb ∧ t.pinsel = s.pinsel
      ∧ t.dCtl = s.dCtl ∧ t.dLen = s.dLen ∧ t.dSrc = s.dSrc ∧ t.dRem = s.dRem ∧ t.dCfgd = s.dCfgd
      ∧ t.armed = s.armed
      ∧ t.sysReady = s.sysReady ∧ t.fault = s.fault ∧ t.resp = s.resp
      ∧ sameBuffer s t ∧ sameRecord s t
      ∧ t.cfg = s.cfg ∧ t.program = s.program ∧ t.sched = as

/-- R169, R170: one byte from `BUF[D_SRC]` into `T_CCB`; an unwritten entry gives some byte and fault 10 and
the step goes on; the byte that uses up the count disarms the engine. -/
def Obligations.DmaxferMovesOneByte : Prop :=
  ∀ (s : State) (as : List Agent), s.sched = .dma :: as → s.armed = true → s.dreq = true →
    s.dSrc.toNat < s.cfg.bufLen →
    ∃ t, step s = .next t
      ∧ (∀ b, s.mem.read s.dSrc.toNat = some b → t.tCcb = b ∧ t.fault = s.fault)
      ∧ (s.mem.read s.dSrc.toNat = none → t.fault = stickyFault s.fault 10)
      ∧ t.history = ⟨.dma, .read, s.dSrc.toNat, t.tCcb⟩ :: s.history
      ∧ t.dSrc = s.dSrc + 1 ∧ t.dRem = s.dRem - 1 ∧ t.dreq = false
      ∧ (t.armed = false ↔ t.dRem = 0)
      ∧ t.dCtl = s.dCtl ∧ t.dLen = s.dLen ∧ t.dCfgd = s.dCfgd
      ∧ t.tstate = s.tstate ∧ t.tTop = s.tTop ∧ t.tPsc = s.tPsc ∧ t.tCnt = s.tCnt ∧ t.tCha = s.tCha
      ∧ t.tChb = s.tChb ∧ t.pinsel = s.pinsel ∧ t.out = s.out
      ∧ t.sysReady = s.sysReady ∧ t.resp = s.resp ∧ sameBuffer s t
      ∧ t.cfg = s.cfg ∧ t.program = s.program ∧ t.sched = as

/-- R240 with R46: RESET, in every state. -/
def Obligations.ResetSetsEveryPieceOfState : Prop :=
  ∀ (s : State) (as : List Agent), s.sched = .environment :: as →
    ∃ t, step s = .next t
      ∧ t.sysReady = false ∧ t.tstate = .idle ∧ t.tTop = 0 ∧ t.tPsc = 0 ∧ t.tCnt = 0 ∧ t.tCha = 0
      ∧ t.tChb = 0 ∧ t.tCcb = 0 ∧ t.pinsel = 0 ∧ t.out = false ∧ t.dCtl = 0 ∧ t.dLen = 0 ∧ t.dSrc = 0
      ∧ t.dRem = 0 ∧ t.dCfgd = false ∧ t.armed = false ∧ t.dreq = false ∧ t.fault = 0
      ∧ (∀ i, t.mem.read i = none) ∧ ∀ n, n < 16 → readCr t n = 0

/-- R46, R241: the state the machine starts in; nothing is enabled in it but host commands. -/
def Obligations.StateAfterResetIsAllZero : Prop :=
  ∀ c : Config, (∀ n, n < 16 → readCr (State.resetWith c) n = 0)
    ∧ (∀ i, (State.resetWith c).mem.read i = none)
    ∧ tickEnabled (State.resetWith c) = false ∧ dmaEnabled (State.resetWith c) = false
    ∧ pinLevel (State.resetWith c) = none

/-! ### Rules of the whole machine -/

/-- R26, R211: `FAULT` keeps the first code; only RESET changes it after that. -/
def Obligations.FirstFaultIsKeptUntilReset : Prop :=
  ∀ s t : State, step s = .next t → s.fault ≠ 0 → moving s ≠ .environment → t.fault = s.fault

/-- R211, R215: a command that faults (other than the recorded code 10) made none of its writes. -/
def Obligations.FaultingCommandChangesNothingElse : Prop :=
  ∀ (i : Instr) (s t : State), exec i s = .next t → t.fault ≠ s.fault → t.fault ≠ 10 →
    faultedWith t.fault s t

/-- R24, R32, R34, R42, R43: each register, latch and buffer entry is written only by the step named for it. -/
def Obligations.EachRegisterIsWrittenOnlyByItsSteps : Prop :=
  ∀ s t : State, step s = .next t → moving s ≠ .environment →
    (t.sysReady ≠ s.sysReady → hostRuns .sysinit s)
    ∧ (t.tTop ≠ s.tTop ∨ t.tPsc ≠ s.tPsc ∨ t.tCha ≠ s.tCha ∨ t.tChb ≠ s.tChb ∨ t.pinsel ≠ s.pinsel →
        hostRuns .tcfg s)
    ∧ (t.tCnt ≠ s.tCnt → hostRuns .tstart s ∨ moving s = .timer)
    ∧ (t.tCcb ≠ s.tCcb → moving s = .dma)
    ∧ (t.out ≠ s.out → moving s = .timer)
    ∧ (t.dCtl ≠ s.dCtl ∨ t.dLen ≠ s.dLen ∨ t.dCfgd ≠ s.dCfgd → hostRuns .dcfg s)
    ∧ (t.dSrc ≠ s.dSrc ∨ t.dRem ≠ s.dRem → hostRuns .darm s ∨ moving s = .dma)
    ∧ (∀ j, t.mem.read j ≠ s.mem.read j →
        (hostRuns .bufinit s ∧ j = 0) ∨ ∃ v, hostRuns (.bufwr j v) s)

/-- R140, R148, R45(a): the timer moves only Idle to Configured by TCFG and Configured to Running by TSTART;
nothing but RESET takes it back. -/
def Obligations.TimerTakesOnlyItsTwoTransitions : Prop :=
  ∀ s t : State, step s = .next t → moving s ≠ .environment → t.tstate ≠ s.tstate →
    (s.tstate = .idle ∧ t.tstate = .configured ∧ hostRuns .tcfg s)
    ∨ (s.tstate = .configured ∧ t.tstate = .running ∧ hostRuns .tstart s)

/-- R165, R177: a transfer starts by DARM and ends, short of RESET, only by the `DMAXFER` that uses up the
count. -/
def Obligations.TransferEndsOnlyByItsLastByte : Prop :=
  ∀ s t : State, step s = .next t → moving s ≠ .environment → t.armed ≠ s.armed →
    (s.armed = false ∧ hostRuns .darm s ∧ s.dCfgd = true)
    ∨ (s.armed = true ∧ moving s = .dma ∧ s.dreq = true ∧ s.dRem = 1)

/-- R41, R144, R168: a request rises only at a rollover tick that finds the engine armed, and falls, short of
RESET, only by the `DMAXFER` that serves it. -/
def Obligations.RequestRisesOnlyAtAnArmedRollover : Prop :=
  ∀ s t : State, step s = .next t → moving s ≠ .environment → t.dreq ≠ s.dreq →
    (t.dreq = true ∧ moving s = .timer ∧ s.tstate = .running ∧ s.tCnt = s.tTop ∧ s.armed = true)
    ∨ (t.dreq = false ∧ moving s = .dma ∧ s.armed = true)

/-- R5: no step writes the configuration. -/
def Obligations.NoStepWritesTheConfiguration : Prop :=
  ∀ s t : State, step s = .next t → t.cfg = s.cfg

/-- The invariant holds after reset, for every configuration with a legal LED count (R45, R5). -/
def Obligations.ResetMeetsTheInvariant : Prop :=
  ∀ c : Config, c.ledCount ≤ 2730 → StateInv (State.resetWith c)

/-- R45: every step of every agent keeps the invariant. -/
def Obligations.EveryStepKeepsTheInvariant : Prop :=
  ∀ s t : State, StateInv s → step s = .next t → StateInv t

/-- Under the invariant the machine never stops: the model's fault is out of reach (R169 "No index fault is
possible", R148) and there is no refusal. -/
def Obligations.MachineNeverStops : Prop :=
  ∀ s : State, StateInv s → 0 < s.cfg.bufLen → ∃ t, step s = .next t

/-- R214: no interrupt is ever enabled. -/
def Obligations.NoInterruptIsEverEnabled : Prop :=
  ∀ s : State, StateInv s → interruptEnabled s = false

/-- R33, R34, R220: the pin shows `OUT` from TCFG on, and before it the block does not drive the pin. -/
def Obligations.PinShowsTheLatchOnceRouted : Prop :=
  ∀ s : State, StateInv s →
    (s.tstate ≠ .idle → pinLevel s = some s.out) ∧ (s.tstate = .idle → pinLevel s = none)

/-- Equal buffers are equal data: two canonical memories that read alike are the same list. -/
def Obligations.CanonicalBuffersThatReadAlikeAreEqual : Prop :=
  ∀ m m' : Memory, m.wf = true → m'.wf = true → (∀ i, m.read i = m'.read i) → m = m'

/-! ### The line -/

/-- R149: outside a transfer, with a compare value of 0, the line stays low at every step. -/
def Obligations.IdleCarrierStaysLow : Prop :=
  ∀ s t : State, StateInv s → s.armed = false → s.tCcb = 0 → s.out = false → step s = .next t →
    t.out = false ∧ t.tCcb = 0

/-- R152, the period lemma, under any host activity.  The schedule is the rollover `TICK`, host steps, the
`DMAXFER` turn, then any turns of host, timer and engine (`l`) with at most `T_TOP` further `TICK`s.  `p` is
`T_CCB` before the rollover, `q` is `T_CCB` after the `DMAXFER` turn. -/
def Obligations.PeriodLemma : Prop :=
  ∀ (s : State) (hosts l rest : List Agent),
    StateInv s → s.tstate = .running → s.dreq = false → s.tCnt = s.tTop →
    s.sched = .timer :: (hosts ++ .dma :: (l ++ rest)) →
    (∀ a ∈ hosts, a = .host) → .environment ∉ l → l.count .timer ≤ s.tTop.toNat →
    ∃ r t : State, runSteps (hosts.length + 2) s = .next r
      ∧ runSteps (hosts.length + 2 + l.length) s = .next t
      ∧ (s.armed = false → r.tCcb = s.tCcb)
      ∧ t.tCnt.toNat = l.count .timer ∧ t.tCcb = r.tCcb
      ∧ (s.tCcb = 0 → t.out = false)
      ∧ (s.tCcb ≠ 0 → 1 ≤ r.tCcb.toNat → r.tCcb.toNat ≤ s.tTop.toNat →
          (t.out = true ↔ l.count .timer < r.tCcb.toNat))
      ∧ (s.tCcb ≠ 0 → (r.tCcb = 0 ∨ s.tTop.toNat < r.tCcb.toNat) → t.out = true)

/-- The transfer waveform of R174, for a buffer laid out as R120 asks and no host step in between.  After the
ticks to the first rollover, `k` periods and `j` more ticks, the counter shows `j` in period `k`, and the line
is: low in period 0; a pulse of `BUF[k]` ticks in each data period; high in period `N-1`; low from then on.
`FAULT` does not change, and the engine is armed exactly until period `N-1` begins (R170). -/
def Obligations.TransferPutsTheFrameOnTheLine : Prop :=
  ∀ (s : State) (k j : Nat) (rest : List Agent),
    StateInv s → LaidOut s → s.tstate = .running → s.armed = true → s.dreq = false → s.dSrc = 0 → s.tCcb = 0 →
    j ≤ s.tTop.toNat →
    s.sched = ticks ((s.tTop.toNat - s.tCnt.toNat) + k * s.cfg.period + j + 1) ++ rest →
    ∃ t, runSteps (2 * ((s.tTop.toNat - s.tCnt.toNat) + k * s.cfg.period + j + 1)) s = .next t
      ∧ t.tCnt.toNat = j ∧ t.fault = s.fault ∧ sameBuffer s t
      ∧ (t.armed = true ↔ k + 1 < s.cfg.bufLen)
      ∧ (k = 0 → t.out = false)
      ∧ (∀ b, 1 ≤ k → k + 1 < s.cfg.bufLen → s.mem.read k = some b → (t.out = true ↔ j < b.toNat))
      ∧ (k + 1 = s.cfg.bufLen → t.out = true)
      ∧ (s.cfg.bufLen ≤ k → t.out = false)

/-- R175, with no host step in between and whatever the buffer holds: from an armed engine that has moved no byte, the completing `DMAXFER`
follows a definite tick `n`, at least `(N-1)*PERIOD + 1` and at most `N*PERIOD` ticks away, and the engine is
armed exactly before it.  Every request is served before the next step (log 26). -/
def Obligations.TransferCompletesWithinItsBound : Prop :=
  ∀ s : State, StateInv s → s.tstate = .running → s.armed = true → s.dreq = false → s.dSrc = 0 →
    ∃ n, (s.cfg.bufLen - 1) * s.cfg.period + 1 ≤ n ∧ n ≤ s.cfg.bufLen * s.cfg.period
      ∧ ∀ (m : Nat) (rest : List Agent), ∃ t, runSteps (2 * m) { s with sched := ticks m ++ rest } = .next t
          ∧ (t.armed = true ↔ m < n)

/-- R170, R171, with no host step in between and whatever the buffer holds: `T_TOP - T_CNT + k*PERIOD + j + 1` ticks into a transfer (`j` up to
`T_TOP`), the engine has read the indices `0 .. k` once each, in that order, and nothing beyond the last entry; so
one byte moves per period, and consecutive moves are `PERIOD` ticks apart.  The reads are those of the model's own
history (DESIGN CHOICE, log 11). -/
def Obligations.EachByteIsStreamedOnceInOrder : Prop :=
  ∀ (s : State) (k j : Nat) (rest : List Agent),
    StateInv s → s.tstate = .running → s.armed = true → s.dreq = false → s.dSrc = 0 → j ≤ s.tTop.toNat →
    s.sched = ticks ((s.tTop.toNat - s.tCnt.toNat) + k * s.cfg.period + j + 1) ++ rest →
    ∃ t, runSteps (2 * ((s.tTop.toNat - s.tCnt.toNat) + k * s.cfg.period + j + 1)) s = .next t
      ∧ t.dSrc.toNat = min (k + 1) s.cfg.bufLen
      ∧ t.history.map (fun a => (a.agent, a.kind, a.index))
          = (List.range (min (k + 1) s.cfg.bufLen)).reverse.map (fun i => (Agent.dma, AccessKind.read, i))
            ++ s.history.map (fun a => (a.agent, a.kind, a.index))
      ∧ (t.armed = true ↔ k + 1 < s.cfg.bufLen)

/-- R171 under any host activity: host steps, of any commands, stand before every `TICK` and between it and its
`DMAXFER` turn (`p`).  The turn after tick `T_TOP - T_CNT + k*PERIOD + j + 1` (`j` up to `T_TOP`) is a `DMAXFER`
exactly when `j = 0`, and then it is the `k`-th of its transfer and reads index `k`; no turn before the first
rollover is one.  So consecutive `DMAXFER`s are exactly `PERIOD` ticks apart, up to the last one, after which the
host may arm anew.  `r` is the state before the last turn of the schedule, `t` the state after it. -/
def Obligations.EachPeriodStreamsTheNextIndexUnderHostSteps : Prop :=
  ∀ (s : State) (p : List (Nat × Nat)) (rest : List Agent),
    StateInv s → s.tstate = .running → s.armed = true → s.dreq = false → s.dSrc = 0 → p ≠ [] →
    s.sched = paced p ++ rest →
    (p.length ≤ s.tTop.toNat - s.tCnt.toNat →
      ∃ r t, runSteps ((paced p).length - 1) s = .next r ∧ runSteps (paced p).length s = .next t
        ∧ moving r = .dma ∧ r.dreq = false ∧ t.dSrc = 0 ∧ t.tCcb = s.tCcb ∧ t.armed = true)
    ∧ ∀ k j : Nat, k < s.cfg.bufLen → j ≤ s.tTop.toNat → (k + 1 = s.cfg.bufLen → j = 0) →
        p.length = (s.tTop.toNat - s.tCnt.toNat) + k * s.cfg.period + j + 1 →
        ∃ r t, runSteps ((paced p).length - 1) s = .next r ∧ runSteps (paced p).length s = .next t
          ∧ moving r = .dma ∧ r.armed = true
          ∧ (r.dreq = true ↔ j = 0) ∧ (j = 0 → r.dSrc.toNat = k)
          ∧ (∀ b, j = 0 → r.mem.read k = some b → t.tCcb = b)
          ∧ t.dSrc.toNat = k + 1 ∧ (t.armed = true ↔ k + 1 < s.cfg.bufLen)

/-- R70(e): a byte written behind the source offset does not touch the transfer in flight.  Under any schedule
of timer and engine steps the two runs stay equal but for that byte. -/
def Obligations.ByteBehindTheOffsetIsNotStreamed : Prop :=
  ∀ (s : State) (j : Nat) (v : Byte) (l rest : List Agent),
    StateInv s → j < s.dSrc.toNat → s.sched = l ++ rest → (∀ a ∈ l, a = .timer ∨ a = .dma) →
    ∃ t, runSteps l.length s = .next t
      ∧ runSteps l.length { s with mem := s.mem.write j v } = .next { t with mem := t.mem.write j v }

/-! ### The driver -/

/-- R121: `idx` is a bijection from the triples onto `[1, N-1)`, for every LED count. -/
def Obligations.DataIndexIsABijection : Prop :=
  ∀ n : Nat,
    (∀ i c k, i < n → c < 3 → k < 8 → 1 ≤ dataIndex i c k ∧ dataIndex i c k ≤ 24 * n)
    ∧ (∀ j, 1 ≤ j → j ≤ 24 * n → ∃ i c k, i < n ∧ c < 3 ∧ k < 8 ∧ dataIndex i c k = j)
    ∧ ∀ i c k i' c' k', c < 3 → k < 8 → c' < 3 → k' < 8 → dataIndex i c k = dataIndex i' c' k' →
        i = i' ∧ c = c' ∧ k = k'

/-- R125, R126: COMPOSE of a pattern of the right length is exactly `24*LED_COUNT + 1` BUFWR commands in
ascending index order, the last to index `BUF_LEN-1`; another length is refused. -/
def Obligations.ComposeIsAscendingWritesOrRefused : Prop :=
  ∀ (c : Config) (pattern : List Led), c.bufLen = 24 * c.ledCount + 2 →
    (pattern.length ≠ c.ledCount → compose c pattern = none)
    ∧ (pattern.length = c.ledCount → ∃ vals : List Byte, vals.length = 24 * c.ledCount + 1
        ∧ compose c pattern
            = some (List.zipWith (fun idx val => Instr.bufwr idx val) (List.range' 1 (24 * c.ledCount + 1)) vals))

/-- R129, with no step of any other agent in between: BUFINIT followed by COMPOSE leaves the buffer laid out: each data
entry the code of its bit, most significant bit first in the order green, red, blue (R128), between the
sentinels. -/
def Obligations.ComposeFillsTheBuffer : Prop :=
  ∀ (s : State) (pattern : List Led) (is : List Instr),
    s.cfg.bufLen = 24 * s.cfg.ledCount + 2 → compose s.cfg pattern = some is →
    ∃ t, runCommands (.bufinit :: is) s = .next t
      ∧ (∀ (i : Nat) (p : Led) (k : Nat), pattern[i]? = some p → k < 8 →
          t.mem.read (1 + 24 * i + k) = some (if p.green.getLsbD (7 - k) then s.cfg.high else s.cfg.low)
          ∧ t.mem.read (1 + 24 * i + 8 + k) = some (if p.red.getLsbD (7 - k) then s.cfg.high else s.cfg.low)
          ∧ t.mem.read (1 + 24 * i + 16 + k)
              = some (if p.blue.getLsbD (7 - k) then s.cfg.high else s.cfg.low))
      ∧ t.mem.read 0 = some 255 ∧ t.mem.read (s.cfg.bufLen - 1) = some 0
      ∧ (∀ j, j < s.cfg.bufLen → t.mem.read j ≠ none)
      ∧ (∀ j, s.cfg.bufLen ≤ j → t.mem.read j = s.mem.read j)
      ∧ t.fault = s.fault ∧ t.sysReady = s.sysReady ∧ sameTimer s t ∧ sameEngine s t ∧ sameOutside s t

/-- R192: SYSINIT and LEDINIT from reset, under every valid configuration; and every order of LEDINIT's four
commands that keeps TCFG before TSTART reaches the same state. -/
def Obligations.BootReachesTheIdleCarrier : Prop :=
  ∀ c : Config, configValid c = true →
    ∃ t, runCommands (.sysinit :: ledinit) (State.resetWith c) = .next t
      ∧ readCr t 0 = 0x0D ∧ t.mem.read 0 = some 255 ∧ (∀ i, i ≠ 0 → t.mem.read i = none)
      ∧ t.tTop.toNat = c.period - 1 ∧ t.tPsc.toNat = c.prescale ∧ t.tCha = 0x05 ∧ t.tChb = 0x05
      ∧ t.pinsel = 0x01 ∧ t.dCtl = 0x0D ∧ t.dLen.toNat = c.bufLen
      ∧ t.tCnt = 0 ∧ t.out = false ∧ t.tCcb = 0 ∧ t.fault = 0
      ∧ ∀ l : List Instr, l.Perm ledinit → l.idxOf .tcfg < l.idxOf .tstart →
          runCommands (.sysinit :: l) (State.resetWith c) = .next t

/-- R193, with no other step in between: REFRESH composes and arms; it reads no status first, so in flight its
DARM faults 8 after the rewrite. -/
def Obligations.RefreshComposesThenArms : Prop :=
  ∀ (s : State) (pattern : List Led),
    s.cfg.bufLen = 24 * s.cfg.ledCount + 2 → pattern.length = s.cfg.ledCount → s.dCfgd = true →
    ∃ writes is t u, compose s.cfg pattern = some writes ∧ refresh s.cfg pattern = some is
      ∧ is = writes ++ [.darm]
      ∧ runCommands writes s = .next t ∧ runCommands is s = .next u
      ∧ sameBuffer t u
      ∧ (s.armed = false → u.armed = true ∧ u.dSrc = 0 ∧ u.dRem = s.dLen ∧ u.fault = s.fault)
      ∧ (s.armed = true → u.armed = true ∧ u.dSrc = s.dSrc ∧ u.dRem = s.dRem
          ∧ u.fault = stickyFault s.fault 8)

/-- R193 under any interleaving (R11): the words of REFRESH are the host's next ones, and its turns fall anywhere
in a schedule of host, timer and engine steps (`l`), the last of them DARM's.  When DARM's turn comes (`r`) the
buffer holds what COMPOSE alone would have left, whatever the engine did in between; DARM faults 8 if the engine
is armed then, and arms it otherwise. -/
def Obligations.RefreshRacesWithTheEngine : Prop :=
  ∀ (s t : State) (pattern : List Led) (writes : List Instr) (ws : List Word) (l rest : List Agent),
    StateInv s → s.dCfgd = true → compose s.cfg pattern = some writes → runCommands writes s = .next t →
    s.program = commandWords (writes ++ [.darm]) ++ ws →
    .environment ∉ l → l.count .host = writes.length → s.sched = l ++ .host :: rest →
    refresh s.cfg pattern = some (writes ++ [.darm])
      ∧ ∃ r u, runSteps l.length s = .next r ∧ runSteps (l.length + 1) s = .next u
        ∧ hostRuns .darm r ∧ sameBuffer t r ∧ sameBuffer r u ∧ u.program = ws
        ∧ (r.armed = true → u.armed = true ∧ u.dSrc = r.dSrc ∧ u.dRem = r.dRem
            ∧ u.fault = stickyFault r.fault 8)
        ∧ (r.armed = false → u.armed = true ∧ u.dSrc = 0 ∧ u.dRem = s.dLen ∧ u.fault = r.fault)

/-- R194: SERVICE is nothing or REFRESH, at the host's free choice, which is an argument (DEDUCED, log 17).  That the
choice nothing accepts a pattern of any length is the model's choice (DESIGN CHOICE, log 23). -/
def Obligations.ServiceIsNothingOrRefresh : Prop :=
  ∀ (c : Config) (pattern : List Led),
    service false c pattern = some [] ∧ service true c pattern = refresh c pattern

/-- R91: what the assembler accepts has an encoding: every command of an accepted line is well-formed, and
the decoder reads its word back. -/
def Obligations.AssembledCommandsDecode : Prop :=
  ∀ (c : Config) (wanted : Bool) (line : List Char) (is : List Instr),
    c.bufLen = 24 * c.ledCount + 2 → c.ledCount ≤ 2730 → assembleLine c wanted line = some is →
    ∀ i ∈ is, i.wellFormed = true ∧ decode (encode i) = .ok i
end

