-- ==== Sys2Proof/Laws/Decode.lean ====
section
/-! SUPPORT. The laws of the command word: its fields, and the word put back together from them
(spec/30_encoding.md R86). -/

namespace Sys2Proof

@[simp] theorem opField_commandWord (op : Byte) (a : Half) (b : Byte) : opField (commandWord op a b) = op := by
  unfold opField commandWord; ext i hi; simp; grind

@[simp] theorem aField_commandWord (op : Byte) (a : Half) (b : Byte) : aField (commandWord op a b) = a := by
  unfold aField commandWord; ext i hi; simp; grind

@[simp] theorem bField_commandWord (op : Byte) (a : Half) (b : Byte) : bField (commandWord op a b) = b := by
  unfold bField commandWord; ext i hi; simp; grind

/-- A word is its three fields. -/
theorem commandWord_fields (w : Word) : commandWord (opField w) (aField w) (bField w) = w := by
  unfold commandWord opField aField bField; ext i hi; simp; grind

theorem commandWord_and (op mop : Byte) (a ma : Half) (b mb : Byte) :
    commandWord op a b &&& commandWord mop ma mb = commandWord (op &&& mop) (a &&& ma) (b &&& mb) := by
  unfold commandWord; ext i hi; simp; grind

/-- Two command words are equal exactly when their fields are. -/
theorem commandWord_inj {op op' : Byte} {a a' : Half} {b b' : Byte} :
    commandWord op a b = commandWord op' a' b' ↔ op = op' ∧ a = a' ∧ b = b' := by
  refine ⟨fun h => ⟨?_, ?_, ?_⟩, fun ⟨h, h', h''⟩ => by rw [h, h', h'']⟩
  · simpa using congrArg opField h
  · simpa using congrArg aField h
  · simpa using congrArg bField h

end Sys2Proof
end

