-- ==== Sys2Proof/Laws/Memory.lean ====
section
/-! SUPPORT. The laws of the duration buffer: a read after a write, the canonical form and the bound on the
indices, each kept by the one write there is. -/

namespace Sys2Proof.Machine

@[simp] theorem Memory.read_nil (i : Nat) : Memory.read [] i = none := rfl

/-- A read after a write: the byte at its index, everything else as before (spec/20_memory.md R69, R75). -/
theorem Memory.read_write (m : Memory) (i j : Nat) (v : Byte) :
    (m.write i v).read j = if j = i then some v else m.read j := by
  induction m with
  | nil => simp [Memory.write, Memory.read, Memory.unlisted]
  | cons c rest ih =>
    obtain ⟨k, b⟩ := c
    simp only [Memory.write]
    split
    · simp [Memory.read]
    · split
      · subst k; by_cases hj : j = i <;> simp [Memory.read, hj]
      · by_cases hj : j = k
        · subst k; have : j ≠ i := fun h => by simp_all
          simp [Memory.read, this]
        · simp [Memory.read, hj, ih]

@[simp] theorem Memory.read_write_self (m : Memory) (i : Nat) (v : Byte) : (m.write i v).read i = some v := by
  simp [Memory.read_write]

theorem Memory.read_write_of_ne (m : Memory) {i j : Nat} (v : Byte) (h : j ≠ i) :
    (m.write i v).read j = m.read j := by
  simp [Memory.read_write, h]

/-- The canonical form of a nonempty memory: its first index lies below the second, and so on. -/
theorem Memory.wf_cons (c : Host.Cell) (m : Memory) :
    Memory.wf (c :: m) = true ↔ (∀ d ∈ m.head?, c.1 < d.1) ∧ m.wf = true := by
  obtain ⟨i, b⟩ := c
  cases m with
  | nil => simp [Memory.wf]
  | cons d rest => obtain ⟨j, b'⟩ := d; simp [Memory.wf]

/-- The first index after a write. -/
theorem Memory.head_write (m : Memory) (i : Nat) (v : Byte) :
    ∀ d ∈ (m.write i v).head?, d.1 = i ∨ ∃ e ∈ m.head?, d.1 = e.1 ∧ e.1 ≤ i := by
  cases m with
  | nil => simp [Memory.write]
  | cons c rest =>
    obtain ⟨j, b⟩ := c
    simp only [Memory.write]
    split
    · simp
    · split
      · simp
      · intro d hd; simp at hd; subst hd; right; exact ⟨(j, b), by simp, rfl, by simp; omega⟩

/-- A write keeps the canonical form. -/
theorem Memory.wf_write (m : Memory) (i : Nat) (v : Byte) (h : m.wf = true) : (m.write i v).wf = true := by
  induction m with
  | nil => simp [Memory.write, Memory.wf]
  | cons c rest ih =>
    obtain ⟨j, b⟩ := c
    rw [Memory.wf_cons] at h
    simp only [Memory.write]
    split
    · rename_i hlt
      rw [Memory.wf_cons, Memory.wf_cons]
      exact ⟨by simpa using hlt, h⟩
    · split
      · subst j; rw [Memory.wf_cons]; exact h
      · rename_i h1 h2
        rw [Memory.wf_cons]
        refine ⟨fun d hd => ?_, ih h.2⟩
        rcases Memory.head_write rest i v d hd with hd' | ⟨e, he, hde, -⟩
        · simp only; omega
        · have := h.1 e he; simp only at this ⊢; omega

/-- The indices listed after a write: the written one and those listed before. -/
theorem Memory.mem_write {m : Memory} {i : Nat} {v : Byte} {c : Host.Cell} (h : c ∈ m.write i v) :
    c.1 = i ∨ c ∈ m := by
  induction m with
  | nil => simp [Memory.write] at h; simp [h]
  | cons d rest ih =>
    obtain ⟨j, b⟩ := d
    simp only [Memory.write] at h
    split at h
    · simp at h; rcases h with h | h | h <;> simp [h]
    · split at h
      · simp at h; rcases h with h | h <;> simp [h]
      · simp at h
        rcases h with h | h
        · simp [h]
        · rcases ih h with h | h <;> simp [h]

/-- A written entry is listed. -/
theorem Memory.listed_of_read {m : Memory} {i : Nat} {b : Byte} (h : m.read i = some b) : (i, b) ∈ m := by
  induction m with
  | nil => simp at h
  | cons c rest ih =>
    obtain ⟨j, b'⟩ := c
    simp only [Memory.read] at h
    split at h
    · simp_all
    · simp [ih h]

end Sys2Proof.Machine
end

