-- ==== Sys2Proof/Laws/State.lean ====
section
/-! SUPPORT. What each named update does to each field of the state: one simp lemma per field per update, so
that no later proof unfolds a record update. -/

namespace Sys2Proof.Machine

/-! #### noteAccess -/

@[simp] theorem noteAccess_cfg (who : Agent) (kind : AccessKind) (i : Nat) (v : Byte) (s : State) : (noteAccess who kind i v s).cfg = s.cfg := rfl
@[simp] theorem noteAccess_mem (who : Agent) (kind : AccessKind) (i : Nat) (v : Byte) (s : State) : (noteAccess who kind i v s).mem = s.mem := rfl
@[simp] theorem noteAccess_sysReady (who : Agent) (kind : AccessKind) (i : Nat) (v : Byte) (s : State) : (noteAccess who kind i v s).sysReady = s.sysReady := rfl
@[simp] theorem noteAccess_tstate (who : Agent) (kind : AccessKind) (i : Nat) (v : Byte) (s : State) : (noteAccess who kind i v s).tstate = s.tstate := rfl
@[simp] theorem noteAccess_fault (who : Agent) (kind : AccessKind) (i : Nat) (v : Byte) (s : State) : (noteAccess who kind i v s).fault = s.fault := rfl
@[simp] theorem noteAccess_tTop (who : Agent) (kind : AccessKind) (i : Nat) (v : Byte) (s : State) : (noteAccess who kind i v s).tTop = s.tTop := rfl
@[simp] theorem noteAccess_tPsc (who : Agent) (kind : AccessKind) (i : Nat) (v : Byte) (s : State) : (noteAccess who kind i v s).tPsc = s.tPsc := rfl
@[simp] theorem noteAccess_tCnt (who : Agent) (kind : AccessKind) (i : Nat) (v : Byte) (s : State) : (noteAccess who kind i v s).tCnt = s.tCnt := rfl
@[simp] theorem noteAccess_tCha (who : Agent) (kind : AccessKind) (i : Nat) (v : Byte) (s : State) : (noteAccess who kind i v s).tCha = s.tCha := rfl
@[simp] theorem noteAccess_tChb (who : Agent) (kind : AccessKind) (i : Nat) (v : Byte) (s : State) : (noteAccess who kind i v s).tChb = s.tChb := rfl
@[simp] theorem noteAccess_tCcb (who : Agent) (kind : AccessKind) (i : Nat) (v : Byte) (s : State) : (noteAccess who kind i v s).tCcb = s.tCcb := rfl
@[simp] theorem noteAccess_pinsel (who : Agent) (kind : AccessKind) (i : Nat) (v : Byte) (s : State) : (noteAccess who kind i v s).pinsel = s.pinsel := rfl
@[simp] theorem noteAccess_out (who : Agent) (kind : AccessKind) (i : Nat) (v : Byte) (s : State) : (noteAccess who kind i v s).out = s.out := rfl
@[simp] theorem noteAccess_dCtl (who : Agent) (kind : AccessKind) (i : Nat) (v : Byte) (s : State) : (noteAccess who kind i v s).dCtl = s.dCtl := rfl
@[simp] theorem noteAccess_dLen (who : Agent) (kind : AccessKind) (i : Nat) (v : Byte) (s : State) : (noteAccess who kind i v s).dLen = s.dLen := rfl
@[simp] theorem noteAccess_dSrc (who : Agent) (kind : AccessKind) (i : Nat) (v : Byte) (s : State) : (noteAccess who kind i v s).dSrc = s.dSrc := rfl
@[simp] theorem noteAccess_dRem (who : Agent) (kind : AccessKind) (i : Nat) (v : Byte) (s : State) : (noteAccess who kind i v s).dRem = s.dRem := rfl
@[simp] theorem noteAccess_dCfgd (who : Agent) (kind : AccessKind) (i : Nat) (v : Byte) (s : State) : (noteAccess who kind i v s).dCfgd = s.dCfgd := rfl
@[simp] theorem noteAccess_armed (who : Agent) (kind : AccessKind) (i : Nat) (v : Byte) (s : State) : (noteAccess who kind i v s).armed = s.armed := rfl
@[simp] theorem noteAccess_dreq (who : Agent) (kind : AccessKind) (i : Nat) (v : Byte) (s : State) : (noteAccess who kind i v s).dreq = s.dreq := rfl
@[simp] theorem noteAccess_resp (who : Agent) (kind : AccessKind) (i : Nat) (v : Byte) (s : State) : (noteAccess who kind i v s).resp = s.resp := rfl
@[simp] theorem noteAccess_program (who : Agent) (kind : AccessKind) (i : Nat) (v : Byte) (s : State) : (noteAccess who kind i v s).program = s.program := rfl
@[simp] theorem noteAccess_sched (who : Agent) (kind : AccessKind) (i : Nat) (v : Byte) (s : State) : (noteAccess who kind i v s).sched = s.sched := rfl
@[simp] theorem noteAccess_draws (who : Agent) (kind : AccessKind) (i : Nat) (v : Byte) (s : State) : (noteAccess who kind i v s).draws = s.draws := rfl
@[simp] theorem noteAccess_history (who : Agent) (kind : AccessKind) (i : Nat) (v : Byte) (s : State) : (noteAccess who kind i v s).history = ⟨who, kind, i, v⟩ :: s.history := rfl

/-! #### memWrite -/

@[simp] theorem memWrite_cfg (who : Agent) (i : Nat) (v : Byte) (s : State) : (memWrite who i v s).cfg = s.cfg := rfl
@[simp] theorem memWrite_mem (who : Agent) (i : Nat) (v : Byte) (s : State) : (memWrite who i v s).mem = s.mem.write i v := rfl
@[simp] theorem memWrite_sysReady (who : Agent) (i : Nat) (v : Byte) (s : State) : (memWrite who i v s).sysReady = s.sysReady := rfl
@[simp] theorem memWrite_tstate (who : Agent) (i : Nat) (v : Byte) (s : State) : (memWrite who i v s).tstate = s.tstate := rfl
@[simp] theorem memWrite_fault (who : Agent) (i : Nat) (v : Byte) (s : State) : (memWrite who i v s).fault = s.fault := rfl
@[simp] theorem memWrite_tTop (who : Agent) (i : Nat) (v : Byte) (s : State) : (memWrite who i v s).tTop = s.tTop := rfl
@[simp] theorem memWrite_tPsc (who : Agent) (i : Nat) (v : Byte) (s : State) : (memWrite who i v s).tPsc = s.tPsc := rfl
@[simp] theorem memWrite_tCnt (who : Agent) (i : Nat) (v : Byte) (s : State) : (memWrite who i v s).tCnt = s.tCnt := rfl
@[simp] theorem memWrite_tCha (who : Agent) (i : Nat) (v : Byte) (s : State) : (memWrite who i v s).tCha = s.tCha := rfl
@[simp] theorem memWrite_tChb (who : Agent) (i : Nat) (v : Byte) (s : State) : (memWrite who i v s).tChb = s.tChb := rfl
@[simp] theorem memWrite_tCcb (who : Agent) (i : Nat) (v : Byte) (s : State) : (memWrite who i v s).tCcb = s.tCcb := rfl
@[simp] theorem memWrite_pinsel (who : Agent) (i : Nat) (v : Byte) (s : State) : (memWrite who i v s).pinsel = s.pinsel := rfl
@[simp] theorem memWrite_out (who : Agent) (i : Nat) (v : Byte) (s : State) : (memWrite who i v s).out = s.out := rfl
@[simp] theorem memWrite_dCtl (who : Agent) (i : Nat) (v : Byte) (s : State) : (memWrite who i v s).dCtl = s.dCtl := rfl
@[simp] theorem memWrite_dLen (who : Agent) (i : Nat) (v : Byte) (s : State) : (memWrite who i v s).dLen = s.dLen := rfl
@[simp] theorem memWrite_dSrc (who : Agent) (i : Nat) (v : Byte) (s : State) : (memWrite who i v s).dSrc = s.dSrc := rfl
@[simp] theorem memWrite_dRem (who : Agent) (i : Nat) (v : Byte) (s : State) : (memWrite who i v s).dRem = s.dRem := rfl
@[simp] theorem memWrite_dCfgd (who : Agent) (i : Nat) (v : Byte) (s : State) : (memWrite who i v s).dCfgd = s.dCfgd := rfl
@[simp] theorem memWrite_armed (who : Agent) (i : Nat) (v : Byte) (s : State) : (memWrite who i v s).armed = s.armed := rfl
@[simp] theorem memWrite_dreq (who : Agent) (i : Nat) (v : Byte) (s : State) : (memWrite who i v s).dreq = s.dreq := rfl
@[simp] theorem memWrite_resp (who : Agent) (i : Nat) (v : Byte) (s : State) : (memWrite who i v s).resp = s.resp := rfl
@[simp] theorem memWrite_program (who : Agent) (i : Nat) (v : Byte) (s : State) : (memWrite who i v s).program = s.program := rfl
@[simp] theorem memWrite_sched (who : Agent) (i : Nat) (v : Byte) (s : State) : (memWrite who i v s).sched = s.sched := rfl
@[simp] theorem memWrite_draws (who : Agent) (i : Nat) (v : Byte) (s : State) : (memWrite who i v s).draws = s.draws := rfl
@[simp] theorem memWrite_history (who : Agent) (i : Nat) (v : Byte) (s : State) : (memWrite who i v s).history = ⟨who, .write, i, v⟩ :: s.history := rfl

/-! #### recordFault -/

@[simp] theorem recordFault_cfg (code : FaultCode) (s : State) : (recordFault code s).cfg = s.cfg := by unfold recordFault; split <;> rfl
@[simp] theorem recordFault_mem (code : FaultCode) (s : State) : (recordFault code s).mem = s.mem := by unfold recordFault; split <;> rfl
@[simp] theorem recordFault_sysReady (code : FaultCode) (s : State) : (recordFault code s).sysReady = s.sysReady := by unfold recordFault; split <;> rfl
@[simp] theorem recordFault_tstate (code : FaultCode) (s : State) : (recordFault code s).tstate = s.tstate := by unfold recordFault; split <;> rfl
@[simp] theorem recordFault_fault (code : FaultCode) (s : State) : (recordFault code s).fault = if s.fault = 0 then code.toByte else s.fault := by unfold recordFault; split <;> rfl
@[simp] theorem recordFault_tTop (code : FaultCode) (s : State) : (recordFault code s).tTop = s.tTop := by unfold recordFault; split <;> rfl
@[simp] theorem recordFault_tPsc (code : FaultCode) (s : State) : (recordFault code s).tPsc = s.tPsc := by unfold recordFault; split <;> rfl
@[simp] theorem recordFault_tCnt (code : FaultCode) (s : State) : (recordFault code s).tCnt = s.tCnt := by unfold recordFault; split <;> rfl
@[simp] theorem recordFault_tCha (code : FaultCode) (s : State) : (recordFault code s).tCha = s.tCha := by unfold recordFault; split <;> rfl
@[simp] theorem recordFault_tChb (code : FaultCode) (s : State) : (recordFault code s).tChb = s.tChb := by unfold recordFault; split <;> rfl
@[simp] theorem recordFault_tCcb (code : FaultCode) (s : State) : (recordFault code s).tCcb = s.tCcb := by unfold recordFault; split <;> rfl
@[simp] theorem recordFault_pinsel (code : FaultCode) (s : State) : (recordFault code s).pinsel = s.pinsel := by unfold recordFault; split <;> rfl
@[simp] theorem recordFault_out (code : FaultCode) (s : State) : (recordFault code s).out = s.out := by unfold recordFault; split <;> rfl
@[simp] theorem recordFault_dCtl (code : FaultCode) (s : State) : (recordFault code s).dCtl = s.dCtl := by unfold recordFault; split <;> rfl
@[simp] theorem recordFault_dLen (code : FaultCode) (s : State) : (recordFault code s).dLen = s.dLen := by unfold recordFault; split <;> rfl
@[simp] theorem recordFault_dSrc (code : FaultCode) (s : State) : (recordFault code s).dSrc = s.dSrc := by unfold recordFault; split <;> rfl
@[simp] theorem recordFault_dRem (code : FaultCode) (s : State) : (recordFault code s).dRem = s.dRem := by unfold recordFault; split <;> rfl
@[simp] theorem recordFault_dCfgd (code : FaultCode) (s : State) : (recordFault code s).dCfgd = s.dCfgd := by unfold recordFault; split <;> rfl
@[simp] theorem recordFault_armed (code : FaultCode) (s : State) : (recordFault code s).armed = s.armed := by unfold recordFault; split <;> rfl
@[simp] theorem recordFault_dreq (code : FaultCode) (s : State) : (recordFault code s).dreq = s.dreq := by unfold recordFault; split <;> rfl
@[simp] theorem recordFault_resp (code : FaultCode) (s : State) : (recordFault code s).resp = s.resp := by unfold recordFault; split <;> rfl
@[simp] theorem recordFault_program (code : FaultCode) (s : State) : (recordFault code s).program = s.program := by unfold recordFault; split <;> rfl
@[simp] theorem recordFault_sched (code : FaultCode) (s : State) : (recordFault code s).sched = s.sched := by unfold recordFault; split <;> rfl
@[simp] theorem recordFault_draws (code : FaultCode) (s : State) : (recordFault code s).draws = s.draws := by unfold recordFault; split <;> rfl
@[simp] theorem recordFault_history (code : FaultCode) (s : State) : (recordFault code s).history = s.history := by unfold recordFault; split <;> rfl

/-! #### faultState -/

@[simp] theorem faultState_cfg (code : FaultCode) (s : State) : (faultState code s).cfg = s.cfg := by simp [faultState]
@[simp] theorem faultState_mem (code : FaultCode) (s : State) : (faultState code s).mem = s.mem := by simp [faultState]
@[simp] theorem faultState_sysReady (code : FaultCode) (s : State) : (faultState code s).sysReady = s.sysReady := by simp [faultState]
@[simp] theorem faultState_tstate (code : FaultCode) (s : State) : (faultState code s).tstate = s.tstate := by simp [faultState]
@[simp] theorem faultState_fault (code : FaultCode) (s : State) : (faultState code s).fault = if s.fault = 0 then code.toByte else s.fault := by simp [faultState]
@[simp] theorem faultState_tTop (code : FaultCode) (s : State) : (faultState code s).tTop = s.tTop := by simp [faultState]
@[simp] theorem faultState_tPsc (code : FaultCode) (s : State) : (faultState code s).tPsc = s.tPsc := by simp [faultState]
@[simp] theorem faultState_tCnt (code : FaultCode) (s : State) : (faultState code s).tCnt = s.tCnt := by simp [faultState]
@[simp] theorem faultState_tCha (code : FaultCode) (s : State) : (faultState code s).tCha = s.tCha := by simp [faultState]
@[simp] theorem faultState_tChb (code : FaultCode) (s : State) : (faultState code s).tChb = s.tChb := by simp [faultState]
@[simp] theorem faultState_tCcb (code : FaultCode) (s : State) : (faultState code s).tCcb = s.tCcb := by simp [faultState]
@[simp] theorem faultState_pinsel (code : FaultCode) (s : State) : (faultState code s).pinsel = s.pinsel := by simp [faultState]
@[simp] theorem faultState_out (code : FaultCode) (s : State) : (faultState code s).out = s.out := by simp [faultState]
@[simp] theorem faultState_dCtl (code : FaultCode) (s : State) : (faultState code s).dCtl = s.dCtl := by simp [faultState]
@[simp] theorem faultState_dLen (code : FaultCode) (s : State) : (faultState code s).dLen = s.dLen := by simp [faultState]
@[simp] theorem faultState_dSrc (code : FaultCode) (s : State) : (faultState code s).dSrc = s.dSrc := by simp [faultState]
@[simp] theorem faultState_dRem (code : FaultCode) (s : State) : (faultState code s).dRem = s.dRem := by simp [faultState]
@[simp] theorem faultState_dCfgd (code : FaultCode) (s : State) : (faultState code s).dCfgd = s.dCfgd := by simp [faultState]
@[simp] theorem faultState_armed (code : FaultCode) (s : State) : (faultState code s).armed = s.armed := by simp [faultState]
@[simp] theorem faultState_dreq (code : FaultCode) (s : State) : (faultState code s).dreq = s.dreq := by simp [faultState]
@[simp] theorem faultState_resp (code : FaultCode) (s : State) : (faultState code s).resp = none := by simp [faultState]
@[simp] theorem faultState_program (code : FaultCode) (s : State) : (faultState code s).program = s.program := by simp [faultState]
@[simp] theorem faultState_sched (code : FaultCode) (s : State) : (faultState code s).sched = s.sched := by simp [faultState]
@[simp] theorem faultState_draws (code : FaultCode) (s : State) : (faultState code s).draws = s.draws := by simp [faultState]
@[simp] theorem faultState_history (code : FaultCode) (s : State) : (faultState code s).history = s.history := by simp [faultState]

/-! #### programTimer -/

@[simp] theorem programTimer_cfg (s : State) : (programTimer s).cfg = s.cfg := rfl
@[simp] theorem programTimer_mem (s : State) : (programTimer s).mem = s.mem := rfl
@[simp] theorem programTimer_sysReady (s : State) : (programTimer s).sysReady = s.sysReady := rfl
@[simp] theorem programTimer_tstate (s : State) : (programTimer s).tstate = .configured := rfl
@[simp] theorem programTimer_fault (s : State) : (programTimer s).fault = s.fault := rfl
@[simp] theorem programTimer_tTop (s : State) : (programTimer s).tTop = BitVec.ofNat 8 (s.cfg.period - 1) := rfl
@[simp] theorem programTimer_tPsc (s : State) : (programTimer s).tPsc = BitVec.ofNat 8 s.cfg.prescale := rfl
@[simp] theorem programTimer_tCnt (s : State) : (programTimer s).tCnt = s.tCnt := rfl
@[simp] theorem programTimer_tCha (s : State) : (programTimer s).tCha = 0x05 := rfl
@[simp] theorem programTimer_tChb (s : State) : (programTimer s).tChb = 0x05 := rfl
@[simp] theorem programTimer_tCcb (s : State) : (programTimer s).tCcb = s.tCcb := rfl
@[simp] theorem programTimer_pinsel (s : State) : (programTimer s).pinsel = 0x01 := rfl
@[simp] theorem programTimer_out (s : State) : (programTimer s).out = s.out := rfl
@[simp] theorem programTimer_dCtl (s : State) : (programTimer s).dCtl = s.dCtl := rfl
@[simp] theorem programTimer_dLen (s : State) : (programTimer s).dLen = s.dLen := rfl
@[simp] theorem programTimer_dSrc (s : State) : (programTimer s).dSrc = s.dSrc := rfl
@[simp] theorem programTimer_dRem (s : State) : (programTimer s).dRem = s.dRem := rfl
@[simp] theorem programTimer_dCfgd (s : State) : (programTimer s).dCfgd = s.dCfgd := rfl
@[simp] theorem programTimer_armed (s : State) : (programTimer s).armed = s.armed := rfl
@[simp] theorem programTimer_dreq (s : State) : (programTimer s).dreq = s.dreq := rfl
@[simp] theorem programTimer_resp (s : State) : (programTimer s).resp = s.resp := rfl
@[simp] theorem programTimer_program (s : State) : (programTimer s).program = s.program := rfl
@[simp] theorem programTimer_sched (s : State) : (programTimer s).sched = s.sched := rfl
@[simp] theorem programTimer_draws (s : State) : (programTimer s).draws = s.draws := rfl
@[simp] theorem programTimer_history (s : State) : (programTimer s).history = s.history := rfl

/-! #### tick -/

@[simp] theorem tick_cfg (s : State) : (tick s).cfg = s.cfg := rfl
@[simp] theorem tick_mem (s : State) : (tick s).mem = s.mem := rfl
@[simp] theorem tick_sysReady (s : State) : (tick s).sysReady = s.sysReady := rfl
@[simp] theorem tick_tstate (s : State) : (tick s).tstate = s.tstate := rfl
@[simp] theorem tick_fault (s : State) : (tick s).fault = s.fault := rfl
@[simp] theorem tick_tTop (s : State) : (tick s).tTop = s.tTop := rfl
@[simp] theorem tick_tPsc (s : State) : (tick s).tPsc = s.tPsc := rfl
@[simp] theorem tick_tCnt (s : State) : (tick s).tCnt = nextCount s := rfl
@[simp] theorem tick_tCha (s : State) : (tick s).tCha = s.tCha := rfl
@[simp] theorem tick_tChb (s : State) : (tick s).tChb = s.tChb := rfl
@[simp] theorem tick_tCcb (s : State) : (tick s).tCcb = s.tCcb := rfl
@[simp] theorem tick_pinsel (s : State) : (tick s).pinsel = s.pinsel := rfl
@[simp] theorem tick_out (s : State) : (tick s).out = nextOut (nextCount s) s.tCcb s.out := rfl
@[simp] theorem tick_dCtl (s : State) : (tick s).dCtl = s.dCtl := rfl
@[simp] theorem tick_dLen (s : State) : (tick s).dLen = s.dLen := rfl
@[simp] theorem tick_dSrc (s : State) : (tick s).dSrc = s.dSrc := rfl
@[simp] theorem tick_dRem (s : State) : (tick s).dRem = s.dRem := rfl
@[simp] theorem tick_dCfgd (s : State) : (tick s).dCfgd = s.dCfgd := rfl
@[simp] theorem tick_armed (s : State) : (tick s).armed = s.armed := rfl
@[simp] theorem tick_dreq (s : State) : (tick s).dreq = nextRequest s := rfl
@[simp] theorem tick_resp (s : State) : (tick s).resp = s.resp := rfl
@[simp] theorem tick_program (s : State) : (tick s).program = s.program := rfl
@[simp] theorem tick_sched (s : State) : (tick s).sched = s.sched := rfl
@[simp] theorem tick_draws (s : State) : (tick s).draws = s.draws := rfl
@[simp] theorem tick_history (s : State) : (tick s).history = s.history := rfl

/-! #### moveByte -/

@[simp] theorem moveByte_cfg (v : Byte) (s : State) : (moveByte v s).cfg = s.cfg := rfl
@[simp] theorem moveByte_mem (v : Byte) (s : State) : (moveByte v s).mem = s.mem := rfl
@[simp] theorem moveByte_sysReady (v : Byte) (s : State) : (moveByte v s).sysReady = s.sysReady := rfl
@[simp] theorem moveByte_tstate (v : Byte) (s : State) : (moveByte v s).tstate = s.tstate := rfl
@[simp] theorem moveByte_fault (v : Byte) (s : State) : (moveByte v s).fault = s.fault := rfl
@[simp] theorem moveByte_tTop (v : Byte) (s : State) : (moveByte v s).tTop = s.tTop := rfl
@[simp] theorem moveByte_tPsc (v : Byte) (s : State) : (moveByte v s).tPsc = s.tPsc := rfl
@[simp] theorem moveByte_tCnt (v : Byte) (s : State) : (moveByte v s).tCnt = s.tCnt := rfl
@[simp] theorem moveByte_tCha (v : Byte) (s : State) : (moveByte v s).tCha = s.tCha := rfl
@[simp] theorem moveByte_tChb (v : Byte) (s : State) : (moveByte v s).tChb = s.tChb := rfl
@[simp] theorem moveByte_tCcb (v : Byte) (s : State) : (moveByte v s).tCcb = v := rfl
@[simp] theorem moveByte_pinsel (v : Byte) (s : State) : (moveByte v s).pinsel = s.pinsel := rfl
@[simp] theorem moveByte_out (v : Byte) (s : State) : (moveByte v s).out = s.out := rfl
@[simp] theorem moveByte_dCtl (v : Byte) (s : State) : (moveByte v s).dCtl = s.dCtl := rfl
@[simp] theorem moveByte_dLen (v : Byte) (s : State) : (moveByte v s).dLen = s.dLen := rfl
@[simp] theorem moveByte_dSrc (v : Byte) (s : State) : (moveByte v s).dSrc = advanceSource s.dSrc := rfl
@[simp] theorem moveByte_dRem (v : Byte) (s : State) : (moveByte v s).dRem = countDown s.dRem := rfl
@[simp] theorem moveByte_dCfgd (v : Byte) (s : State) : (moveByte v s).dCfgd = s.dCfgd := rfl
@[simp] theorem moveByte_armed (v : Byte) (s : State) : (moveByte v s).armed = stillArmed (countDown s.dRem) s.armed := rfl
@[simp] theorem moveByte_dreq (v : Byte) (s : State) : (moveByte v s).dreq = false := rfl
@[simp] theorem moveByte_resp (v : Byte) (s : State) : (moveByte v s).resp = s.resp := rfl
@[simp] theorem moveByte_program (v : Byte) (s : State) : (moveByte v s).program = s.program := rfl
@[simp] theorem moveByte_sched (v : Byte) (s : State) : (moveByte v s).sched = s.sched := rfl
@[simp] theorem moveByte_draws (v : Byte) (s : State) : (moveByte v s).draws = s.draws := rfl
@[simp] theorem moveByte_history (v : Byte) (s : State) : (moveByte v s).history = s.history := rfl

/-! #### resetBlock -/

@[simp] theorem resetBlock_cfg (s : State) : (resetBlock s).cfg = s.cfg := rfl
@[simp] theorem resetBlock_mem (s : State) : (resetBlock s).mem = [] := rfl
@[simp] theorem resetBlock_sysReady (s : State) : (resetBlock s).sysReady = false := rfl
@[simp] theorem resetBlock_tstate (s : State) : (resetBlock s).tstate = .idle := rfl
@[simp] theorem resetBlock_fault (s : State) : (resetBlock s).fault = 0 := rfl
@[simp] theorem resetBlock_tTop (s : State) : (resetBlock s).tTop = 0 := rfl
@[simp] theorem resetBlock_tPsc (s : State) : (resetBlock s).tPsc = 0 := rfl
@[simp] theorem resetBlock_tCnt (s : State) : (resetBlock s).tCnt = 0 := rfl
@[simp] theorem resetBlock_tCha (s : State) : (resetBlock s).tCha = 0 := rfl
@[simp] theorem resetBlock_tChb (s : State) : (resetBlock s).tChb = 0 := rfl
@[simp] theorem resetBlock_tCcb (s : State) : (resetBlock s).tCcb = 0 := rfl
@[simp] theorem resetBlock_pinsel (s : State) : (resetBlock s).pinsel = 0 := rfl
@[simp] theorem resetBlock_out (s : State) : (resetBlock s).out = false := rfl
@[simp] theorem resetBlock_dCtl (s : State) : (resetBlock s).dCtl = 0 := rfl
@[simp] theorem resetBlock_dLen (s : State) : (resetBlock s).dLen = 0 := rfl
@[simp] theorem resetBlock_dSrc (s : State) : (resetBlock s).dSrc = 0 := rfl
@[simp] theorem resetBlock_dRem (s : State) : (resetBlock s).dRem = 0 := rfl
@[simp] theorem resetBlock_dCfgd (s : State) : (resetBlock s).dCfgd = false := rfl
@[simp] theorem resetBlock_armed (s : State) : (resetBlock s).armed = false := rfl
@[simp] theorem resetBlock_dreq (s : State) : (resetBlock s).dreq = false := rfl
@[simp] theorem resetBlock_resp (s : State) : (resetBlock s).resp = none := rfl
@[simp] theorem resetBlock_program (s : State) : (resetBlock s).program = s.program := rfl
@[simp] theorem resetBlock_sched (s : State) : (resetBlock s).sched = s.sched := rfl
@[simp] theorem resetBlock_draws (s : State) : (resetBlock s).draws = s.draws := rfl
@[simp] theorem resetBlock_history (s : State) : (resetBlock s).history = s.history := rfl

/-! #### memRead_snd -/

@[simp] theorem memRead_snd_cfg (who : Agent) (i : Nat) (s : State) : ((memRead who i s).2).cfg = s.cfg := by unfold memRead; split <;> simp
@[simp] theorem memRead_snd_mem (who : Agent) (i : Nat) (s : State) : ((memRead who i s).2).mem = s.mem := by unfold memRead; split <;> simp
@[simp] theorem memRead_snd_sysReady (who : Agent) (i : Nat) (s : State) : ((memRead who i s).2).sysReady = s.sysReady := by unfold memRead; split <;> simp
@[simp] theorem memRead_snd_tstate (who : Agent) (i : Nat) (s : State) : ((memRead who i s).2).tstate = s.tstate := by unfold memRead; split <;> simp
@[simp] theorem memRead_snd_tTop (who : Agent) (i : Nat) (s : State) : ((memRead who i s).2).tTop = s.tTop := by unfold memRead; split <;> simp
@[simp] theorem memRead_snd_tPsc (who : Agent) (i : Nat) (s : State) : ((memRead who i s).2).tPsc = s.tPsc := by unfold memRead; split <;> simp
@[simp] theorem memRead_snd_tCnt (who : Agent) (i : Nat) (s : State) : ((memRead who i s).2).tCnt = s.tCnt := by unfold memRead; split <;> simp
@[simp] theorem memRead_snd_tCha (who : Agent) (i : Nat) (s : State) : ((memRead who i s).2).tCha = s.tCha := by unfold memRead; split <;> simp
@[simp] theorem memRead_snd_tChb (who : Agent) (i : Nat) (s : State) : ((memRead who i s).2).tChb = s.tChb := by unfold memRead; split <;> simp
@[simp] theorem memRead_snd_tCcb (who : Agent) (i : Nat) (s : State) : ((memRead who i s).2).tCcb = s.tCcb := by unfold memRead; split <;> simp
@[simp] theorem memRead_snd_pinsel (who : Agent) (i : Nat) (s : State) : ((memRead who i s).2).pinsel = s.pinsel := by unfold memRead; split <;> simp
@[simp] theorem memRead_snd_out (who : Agent) (i : Nat) (s : State) : ((memRead who i s).2).out = s.out := by unfold memRead; split <;> simp
@[simp] theorem memRead_snd_dCtl (who : Agent) (i : Nat) (s : State) : ((memRead who i s).2).dCtl = s.dCtl := by unfold memRead; split <;> simp
@[simp] theorem memRead_snd_dLen (who : Agent) (i : Nat) (s : State) : ((memRead who i s).2).dLen = s.dLen := by unfold memRead; split <;> simp
@[simp] theorem memRead_snd_dSrc (who : Agent) (i : Nat) (s : State) : ((memRead who i s).2).dSrc = s.dSrc := by unfold memRead; split <;> simp
@[simp] theorem memRead_snd_dRem (who : Agent) (i : Nat) (s : State) : ((memRead who i s).2).dRem = s.dRem := by unfold memRead; split <;> simp
@[simp] theorem memRead_snd_dCfgd (who : Agent) (i : Nat) (s : State) : ((memRead who i s).2).dCfgd = s.dCfgd := by unfold memRead; split <;> simp
@[simp] theorem memRead_snd_armed (who : Agent) (i : Nat) (s : State) : ((memRead who i s).2).armed = s.armed := by unfold memRead; split <;> simp
@[simp] theorem memRead_snd_dreq (who : Agent) (i : Nat) (s : State) : ((memRead who i s).2).dreq = s.dreq := by unfold memRead; split <;> simp
@[simp] theorem memRead_snd_resp (who : Agent) (i : Nat) (s : State) : ((memRead who i s).2).resp = s.resp := by unfold memRead; split <;> simp
@[simp] theorem memRead_snd_program (who : Agent) (i : Nat) (s : State) : ((memRead who i s).2).program = s.program := by unfold memRead; split <;> simp
@[simp] theorem memRead_snd_sched (who : Agent) (i : Nat) (s : State) : ((memRead who i s).2).sched = s.sched := by unfold memRead; split <;> simp
@[simp] theorem memRead_snd_history (who : Agent) (i : Nat) (s : State) : ((memRead who i s).2).history = ⟨who, .read, i, (memRead who i s).1⟩ :: s.history := by unfold memRead; split <;> simp

/-! #### nextAgent_snd -/

@[simp] theorem nextAgent_snd_cfg (s : State) : ((nextAgent s).2).cfg = s.cfg := by unfold nextAgent; split <;> simp_all
@[simp] theorem nextAgent_snd_mem (s : State) : ((nextAgent s).2).mem = s.mem := by unfold nextAgent; split <;> simp_all
@[simp] theorem nextAgent_snd_sysReady (s : State) : ((nextAgent s).2).sysReady = s.sysReady := by unfold nextAgent; split <;> simp_all
@[simp] theorem nextAgent_snd_tstate (s : State) : ((nextAgent s).2).tstate = s.tstate := by unfold nextAgent; split <;> simp_all
@[simp] theorem nextAgent_snd_fault (s : State) : ((nextAgent s).2).fault = s.fault := by unfold nextAgent; split <;> simp_all
@[simp] theorem nextAgent_snd_tTop (s : State) : ((nextAgent s).2).tTop = s.tTop := by unfold nextAgent; split <;> simp_all
@[simp] theorem nextAgent_snd_tPsc (s : State) : ((nextAgent s).2).tPsc = s.tPsc := by unfold nextAgent; split <;> simp_all
@[simp] theorem nextAgent_snd_tCnt (s : State) : ((nextAgent s).2).tCnt = s.tCnt := by unfold nextAgent; split <;> simp_all
@[simp] theorem nextAgent_snd_tCha (s : State) : ((nextAgent s).2).tCha = s.tCha := by unfold nextAgent; split <;> simp_all
@[simp] theorem nextAgent_snd_tChb (s : State) : ((nextAgent s).2).tChb = s.tChb := by unfold nextAgent; split <;> simp_all
@[simp] theorem nextAgent_snd_tCcb (s : State) : ((nextAgent s).2).tCcb = s.tCcb := by unfold nextAgent; split <;> simp_all
@[simp] theorem nextAgent_snd_pinsel (s : State) : ((nextAgent s).2).pinsel = s.pinsel := by unfold nextAgent; split <;> simp_all
@[simp] theorem nextAgent_snd_out (s : State) : ((nextAgent s).2).out = s.out := by unfold nextAgent; split <;> simp_all
@[simp] theorem nextAgent_snd_dCtl (s : State) : ((nextAgent s).2).dCtl = s.dCtl := by unfold nextAgent; split <;> simp_all
@[simp] theorem nextAgent_snd_dLen (s : State) : ((nextAgent s).2).dLen = s.dLen := by unfold nextAgent; split <;> simp_all
@[simp] theorem nextAgent_snd_dSrc (s : State) : ((nextAgent s).2).dSrc = s.dSrc := by unfold nextAgent; split <;> simp_all
@[simp] theorem nextAgent_snd_dRem (s : State) : ((nextAgent s).2).dRem = s.dRem := by unfold nextAgent; split <;> simp_all
@[simp] theorem nextAgent_snd_dCfgd (s : State) : ((nextAgent s).2).dCfgd = s.dCfgd := by unfold nextAgent; split <;> simp_all
@[simp] theorem nextAgent_snd_armed (s : State) : ((nextAgent s).2).armed = s.armed := by unfold nextAgent; split <;> simp_all
@[simp] theorem nextAgent_snd_dreq (s : State) : ((nextAgent s).2).dreq = s.dreq := by unfold nextAgent; split <;> simp_all
@[simp] theorem nextAgent_snd_resp (s : State) : ((nextAgent s).2).resp = s.resp := by unfold nextAgent; split <;> simp_all
@[simp] theorem nextAgent_snd_program (s : State) : ((nextAgent s).2).program = s.program := by unfold nextAgent; split <;> simp_all
@[simp] theorem nextAgent_snd_sched (s : State) : ((nextAgent s).2).sched = s.sched.tail := by unfold nextAgent; split <;> simp_all
@[simp] theorem nextAgent_snd_history (s : State) : ((nextAgent s).2).history = s.history := by unfold nextAgent; split <;> simp_all

end Sys2Proof.Machine
end

