-- ==== Sys2Proof/Laws/Ops.lean ====
section
/-! SUPPORT. What the shared operations can do: the fault outcome, the access primitives, the choice of the
agent, the configuration checks. -/

namespace Sys2Proof.Machine

/-- `raise Fault(code)` answers a next state in which nothing but `FAULT` is written (R211). -/
theorem raiseFault_faultedWith (code : FaultCode) (s : State) :
    ∃ t, raiseFault code s = .next t ∧ faultedWith code.toByte s t := by
  refine ⟨_, rfl, ?_⟩
  simp [faultedWith, stickyFault, sameTimer, sameEngine, sameBuffer, sameRecord, sameOutside]

@[simp] theorem raiseFault_eq (code : FaultCode) (s : State) :
    raiseFault code s = .next (faultState code s) := rfl

@[simp] theorem finish_eq (s : State) : finish s = .next { s with resp := none } := rfl

@[simp] theorem respond_eq (b : Byte) (s : State) : respond b s = .next { s with resp := some b } := rfl

theorem FaultCode.toByte_ne_zero (code : FaultCode) : code.toByte ≠ 0 := by cases code <;> decide

theorem FaultCode.toByte_le (code : FaultCode) : code.toByte.toNat ≤ 10 := by cases code <;> decide

/-- `MemRead` of a written entry (R75). -/
theorem memRead_written {who : Agent} {i : Nat} {s : State} {b : Byte} (h : s.mem.read i = some b) :
    memRead who i s = (b, noteAccess who .read i b s) := by
  simp [memRead, h]

/-- `MemRead` of an unwritten entry (R75): a free byte, fault 10 recorded. -/
theorem memRead_unwritten {who : Agent} {i : Nat} {s : State} (h : s.mem.read i = none) :
    memRead who i s = (Config.freeByte s.draws,
      noteAccess who .read i (Config.freeByte s.draws)
        (recordFault .unwrittenRead { s with draws := s.draws + 1 })) := by
  simp [memRead, h]

/-- The fault register after a `MemRead`. -/
theorem memRead_fault (who : Agent) (i : Nat) (s : State) :
    (memRead who i s).2.fault = if s.mem.read i = none then stickyFault s.fault 10 else s.fault := by
  cases h : s.mem.read i with
  | none => simp [memRead_unwritten h, stickyFault, FaultCode.toByte]
  | some b => simp [memRead_written h]

/-- The agent at the head of the schedule moves, and its turn is used up. -/
theorem nextAgent_cons {s : State} {a : Agent} {as : List Agent} (h : s.sched = a :: as) :
    nextAgent s = (a, { s with sched := as }) := by
  simp [nextAgent, h]

theorem moving_cons {s : State} {a : Agent} {as : List Agent} (h : s.sched = a :: as) : moving s = a := by
  simp [moving, nextAgent_cons h]

/-- One step with an agent at the head of the schedule. -/
theorem step_cons {s : State} {a : Agent} {as : List Agent} (h : s.sched = a :: as) :
    step s = agentStep a { s with sched := as } := by
  simp [step, nextAgent_cons h]

/-- TCFG's checks pass exactly on the valid configurations (R6, R141). -/
theorem configError_eq_none (c : Config) : configError c = none ↔ configValid c = true := by
  unfold configError configValid
  cases durationsFit c <;> cases lengthFits c <;> cases profileFits c <;> simp

/-- The clauses of `ConfigValid` (R6) as inequalities. -/
theorem configValid_iff (c : Config) :
    configValid c = true ↔
      c.high.toNat < c.period ∧ c.low.toNat < c.period ∧ c.bufLen = 24 * c.ledCount + 2
        ∧ c.low.toNat < c.high.toNat ∧ 1 ≤ c.low.toNat ∧ 2 ≤ c.period ∧ c.period ≤ 256
        ∧ 1 ≤ c.prescale ∧ c.prescale ≤ 255 ∧ 1 ≤ c.ledCount ∧ c.ledCount ≤ 2730 := by
  simp only [configValid, durationsFit, lengthFits, profileFits, Bool.and_eq_true, decide_eq_true_eq]
  tauto

/-- What DCFG writes to `D_LEN` where it fits (R166). -/
theorem lengthRegister_toNat {c : Config} (h : c.bufLen < 65536) : (lengthRegister c).toNat = c.bufLen := by
  simp [lengthRegister, h]

@[simp] theorem paced_nil : paced [] = [] := rfl

theorem paced_cons (a b : Nat) (p : List (Nat × Nat)) :
    paced ((a, b) :: p) = List.replicate a .host ++ .timer :: (List.replicate b .host ++ .dma :: paced p) := rfl

/-- `TICK*n` is the paced schedule without host steps (R94). -/
theorem ticks_eq_paced (n : Nat) : ticks n = paced (List.replicate n (0, 0)) := by
  induction n with
  | zero => rfl
  | succ n ih => simp [ticks, List.replicate_succ, paced_cons, ih]

@[simp] theorem length_ticks (n : Nat) : (ticks n).length = 2 * n := by
  induction n with
  | zero => rfl
  | succ n ih => simp [ticks, ih]; omega

/-- The host's `Core.run` and `runSteps` are the same run. -/
theorem run_core_eq_runSteps (n : Nat) (s : State) :
    Host.Core.run { State := State, Fault := Fault, Refusal := Refusal, step := step, reset := State.reset } n s
      = runSteps n s := by
  induction n generalizing s with
  | zero => rfl
  | succ n ih =>
    simp only [Host.Core.run, runSteps]
    cases step s with
    | next t => exact ih t
    | fault r => rfl
    | refused r => rfl

/-- Two runs, one after the other. -/
theorem runSteps_add {m n : Nat} {s t : State} (h : runSteps m s = .next t) :
    runSteps (m + n) s = runSteps n t := by
  induction m generalizing s with
  | zero => simp only [runSteps] at h; cases h; simp
  | succ m ih =>
    rw [Nat.succ_add_eq_add_succ, ← Nat.succ_add_eq_add_succ, Nat.succ_add]
    simp only [runSteps] at h ⊢
    cases hs : step s with
    | next u => rw [hs] at h; exact ih h
    | fault r => rw [hs] at h; cases h
    | refused r => rw [hs] at h; cases h

end Sys2Proof.Machine
end

