-- ==== Sys2Proof/Laws/Exec.lean ====
section
/-! SUPPORT. What each command can do, said once: the next states it answers, with the guard of each. -/

namespace Sys2Proof.Machine

theorem execBufinit_cases {s t : State} (h : execBufinit s = .next t) :
    0 < s.cfg.bufLen ∧ t = { memWrite .host 0 255 s with resp := none } := by
  unfold execBufinit at h
  split at h
  · rename_i hi
    simp only [finish_eq, Host.Outcome.next.injEq] at h
    exact ⟨of_decide_eq_true hi, h.symm⟩
  · cases h

theorem execBufwr_cases {idx : Nat} {val : Byte} {s t : State} (h : execBufwr idx val s = .next t) :
    (idx < s.cfg.bufLen ∧ t = { memWrite .host idx val s with resp := none })
      ∨ (s.cfg.bufLen ≤ idx ∧ t = faultState .bufIndex s) := by
  unfold execBufwr at h
  split at h <;> rename_i hi
  · simp only [finish_eq, Host.Outcome.next.injEq] at h
    exact .inl ⟨by simpa [indexInBuffer] using hi, h.symm⟩
  · simp only [raiseFault_eq, Host.Outcome.next.injEq] at h
    exact .inr ⟨by simpa [indexInBuffer] using hi, h.symm⟩

theorem execBufrd_cases {idx : Nat} {s t : State} (h : execBufrd idx s = .next t) :
    (idx < s.cfg.bufLen
        ∧ t = { (memRead .host idx s).2 with resp := some (memRead .host idx s).1 })
      ∨ (s.cfg.bufLen ≤ idx ∧ t = faultState .bufIndex s) := by
  unfold execBufrd at h
  split at h <;> rename_i hi
  · simp only [respond_eq, Host.Outcome.next.injEq] at h
    exact .inl ⟨by simpa [indexInBuffer] using hi, h.symm⟩
  · simp only [raiseFault_eq, Host.Outcome.next.injEq] at h
    exact .inr ⟨by simpa [indexInBuffer] using hi, h.symm⟩

theorem execTcfg_cases {s t : State} (h : execTcfg s = .next t) :
    (∃ code, code ≠ .unwrittenRead ∧ t = faultState code s)
      ∨ (s.sysReady = true ∧ s.tstate = .idle ∧ configValid s.cfg = true
          ∧ t = { programTimer s with resp := none }) := by
  unfold execTcfg at h
  split at h
  · exact .inl ⟨.bootOrder, by decide, by simpa using h.symm⟩
  · rename_i hr
    split at h
    · exact .inl ⟨.stateOrder, by decide, by simpa using h.symm⟩
    · rename_i hi
      split at h
      · rename_i code hc
        refine .inl ⟨code, ?_, by simpa using h.symm⟩
        rintro rfl
        unfold configError at hc
        split at hc <;> [skip; split at hc] <;> [skip; skip; split at hc] <;> cases hc
      · rename_i hc
        exact .inr ⟨by simpa using hr, by simpa using hi, (configError_eq_none _).1 hc, by simpa using h.symm⟩

theorem execTstart_cases {s t : State} (h : execTstart s = .next t) :
    (s.tstate ≠ .configured ∧ t = faultState .stateOrder s)
      ∨ (s.tstate = .configured ∧ t = { s with tCnt := 0, tstate := .running, resp := none }) := by
  unfold execTstart at h
  split at h <;> rename_i hi
  · exact .inl ⟨hi, by simpa using h.symm⟩
  · exact .inr ⟨by simpa using hi, by simpa using h.symm⟩

theorem execDcfg_cases {s t : State} (h : execDcfg s = .next t) :
    (s.armed = true ∧ t = faultState .stateOrder s)
      ∨ (s.armed = false ∧ s.cfg.bufLen ≠ 24 * s.cfg.ledCount + 2 ∧ t = faultState .cfgBufLen s)
      ∨ (s.armed = false ∧ s.cfg.bufLen = 24 * s.cfg.ledCount + 2
          ∧ t = { s with dCtl := 0x0D, dLen := lengthRegister s.cfg, dCfgd := true, resp := none }) := by
  unfold execDcfg at h
  split at h <;> rename_i ha
  · exact .inl ⟨ha, by simpa using h.symm⟩
  · split at h <;> rename_i hl
    · exact .inr (.inl ⟨by simpa using ha, by simpa [lengthFits] using hl, by simpa using h.symm⟩)
    · exact .inr (.inr ⟨by simpa using ha, by simpa [lengthFits] using hl, by simpa using h.symm⟩)

theorem execDarm_cases {s t : State} (h : execDarm s = .next t) :
    (s.dCfgd = false ∧ t = faultState .stateOrder s)
      ∨ (s.dCfgd = true ∧ s.armed = true ∧ t = faultState .reArmInFlight s)
      ∨ (s.dCfgd = true ∧ s.armed = false
          ∧ t = { s with dSrc := 0, dRem := s.dLen, armed := true, resp := none }) := by
  unfold execDarm at h
  split at h <;> rename_i hc
  · exact .inl ⟨by simpa using hc, by simpa using h.symm⟩
  · split at h <;> rename_i ha
    · exact .inr (.inl ⟨by simpa using hc, ha, by simpa using h.symm⟩)
    · exact .inr (.inr ⟨by simpa using hc, by simpa using ha, by simpa using h.symm⟩)

theorem execRdcr_cases {n : Nat} {s t : State} (h : execRdcr n s = .next t) :
    (n < 16 ∧ t = { s with resp := some (readCr s n) }) ∨ (16 ≤ n ∧ t = faultState .regIndex s) := by
  unfold execRdcr at h
  split at h <;> rename_i hn
  · exact .inl ⟨by simpa [registerExists] using hn, by simpa using h.symm⟩
  · exact .inr ⟨by simpa [registerExists] using hn, by simpa using h.symm⟩

/-- Every next state of a command: a fault, or the effect of one of the ten with its guard. -/
theorem exec_cases {i : Instr} {s t : State} (h : exec i s = .next t) :
    (∃ code, code ≠ .unwrittenRead ∧ t = faultState code s)
    ∨ (i = .sysinit ∧ t = { s with sysReady := true, resp := none })
    ∨ (∃ bit, i = .encode bit ∧ t = { s with resp := some (durationCode s.cfg bit) })
    ∨ (i = .bufinit ∧ 0 < s.cfg.bufLen ∧ t = { memWrite .host 0 255 s with resp := none })
    ∨ (∃ idx val, i = .bufwr idx val ∧ idx < s.cfg.bufLen
        ∧ t = { memWrite .host idx val s with resp := none })
    ∨ (∃ idx, i = .bufrd idx ∧ idx < s.cfg.bufLen
        ∧ t = { (memRead .host idx s).2 with resp := some (memRead .host idx s).1 })
    ∨ (i = .tcfg ∧ s.sysReady = true ∧ s.tstate = .idle ∧ configValid s.cfg = true
        ∧ t = { programTimer s with resp := none })
    ∨ (i = .tstart ∧ s.tstate = .configured ∧ t = { s with tCnt := 0, tstate := .running, resp := none })
    ∨ (i = .dcfg ∧ s.armed = false ∧ s.cfg.bufLen = 24 * s.cfg.ledCount + 2
        ∧ t = { s with dCtl := 0x0D, dLen := lengthRegister s.cfg, dCfgd := true, resp := none })
    ∨ (i = .darm ∧ s.dCfgd = true ∧ s.armed = false
        ∧ t = { s with dSrc := 0, dRem := s.dLen, armed := true, resp := none })
    ∨ (∃ n, i = .rdcr n ∧ n < 16 ∧ t = { s with resp := some (readCr s n) }) := by
  cases i with
  | sysinit =>
    simp only [exec, execSysinit, finish_eq, Host.Outcome.next.injEq] at h
    exact .inr (.inl ⟨rfl, h.symm⟩)
  | encode bit =>
    simp only [exec, execEncode, respond_eq, Host.Outcome.next.injEq] at h
    exact .inr (.inr (.inl ⟨bit, rfl, h.symm⟩))
  | bufinit => have := execBufinit_cases h; simp [this]
  | bufwr idx val =>
    rcases execBufwr_cases h with ⟨hi, ht⟩ | ⟨hi, ht⟩
    · simp [hi, ht]
    · exact .inl ⟨_, by decide, ht⟩
  | bufrd idx =>
    rcases execBufrd_cases h with ⟨hi, ht⟩ | ⟨hi, ht⟩
    · simp [hi, ht]
    · exact .inl ⟨_, by decide, ht⟩
  | tcfg =>
    rcases execTcfg_cases h with hf | ⟨hr, hi, hc, ht⟩
    · exact .inl hf
    · simp [hr, hi, hc, ht]
  | tstart =>
    rcases execTstart_cases h with ⟨-, ht⟩ | ⟨hc, ht⟩
    · exact .inl ⟨_, by decide, ht⟩
    · simp [hc, ht]
  | dcfg =>
    rcases execDcfg_cases h with ⟨-, ht⟩ | ⟨-, -, ht⟩ | ⟨ha, hl, ht⟩
    · exact .inl ⟨_, by decide, ht⟩
    · exact .inl ⟨_, by decide, ht⟩
    · simp [ha, hl, ht]
  | darm =>
    rcases execDarm_cases h with ⟨-, ht⟩ | ⟨-, -, ht⟩ | ⟨hc, ha, ht⟩
    · exact .inl ⟨_, by decide, ht⟩
    · exact .inl ⟨_, by decide, ht⟩
    · simp [hc, ha, ht]
  | rdcr n =>
    rcases execRdcr_cases h with ⟨hn, ht⟩ | ⟨-, ht⟩
    · simp [hn, ht]
    · exact .inl ⟨_, by decide, ht⟩

end Sys2Proof.Machine
end

