-- ==== Sys2Proof/Laws/PerInstr.lean ====
section
/-! SUPPORT. Statements about every instruction, one lemma per constructor.  `RowMatch`: the word the encoder
gives an instruction meets `W & mask = match` of the row of R88 the instruction stands in, and that row is one
of the table's ten (spec/30_encoding.md R88). -/

namespace Sys2Proof.Laws.RowMatch

/-- The word of `i` matches the row of `i`, and the row is in the map. -/
def Statement (i : Instr) : Prop := (opcodeRow i).matchesWord (encode i) = true ∧ opcodeRow i ∈ opcodeMap

theorem sysinit : Statement .sysinit := by unfold Statement; decide

theorem encode (bit : Bool) : Statement (.encode bit) := by unfold Statement; revert bit; decide

theorem bufinit : Statement .bufinit := by unfold Statement; decide

theorem bufwr (idx : Nat) (val : Byte) : Statement (.bufwr idx val) := by
  refine ⟨?_, by simp [opcodeMap, opcodeRow]⟩
  show (commandWord 0x12 (BitVec.ofNat 16 idx) val &&& commandWord 0xFF 0 0 == commandWord 0x12 0 0) = true
  rw [beq_iff_eq, commandWord_and, commandWord_inj]
  exact ⟨by decide, by simp, by simp⟩

theorem bufrd (idx : Nat) : Statement (.bufrd idx) := by
  refine ⟨?_, by simp [opcodeMap, opcodeRow]⟩
  show (commandWord 0x13 (BitVec.ofNat 16 idx) 0 &&& commandWord 0xFF 0 0xFF == commandWord 0x13 0 0) = true
  rw [beq_iff_eq, commandWord_and, commandWord_inj]
  exact ⟨by decide, by simp, by simp⟩

theorem tcfg : Statement .tcfg := by unfold Statement; decide

theorem tstart : Statement .tstart := by unfold Statement; decide

theorem dcfg : Statement .dcfg := by unfold Statement; decide

theorem darm : Statement .darm := by unfold Statement; decide

theorem rdcr (n : Nat) : Statement (.rdcr n) := by
  refine ⟨?_, by simp [opcodeMap, opcodeRow]⟩
  show (commandWord 0x40 0 (BitVec.ofNat 8 n) &&& commandWord 0xFF 0xFFFF 0 == commandWord 0x40 0 0) = true
  rw [beq_iff_eq, commandWord_and, commandWord_inj]
  exact ⟨by decide, by simp, by simp⟩

end Sys2Proof.Laws.RowMatch
end

