-- ==== Sys2Proof/Laws/Step.lean ====
section
/-! SUPPORT. What one step can do, said once. -/

namespace Sys2Proof.Machine

/-- Every next state of a step: a turn that passes, an illegal word, a command, a `TICK`, a `DMAXFER` or a
RESET, each with its guard.  `(nextAgent s).2` is `s` with the turn used up. -/
theorem step_cases {s t : State} (h : step s = .next t) :
    (moving s ≠ .environment ∧ t = (nextAgent s).2)
    ∨ (∃ w ws e, moving s = .host ∧ s.program = w :: ws ∧ decode w = .error e
        ∧ t = faultState .illegalCommand { (nextAgent s).2 with program := ws })
    ∨ (∃ w ws i, moving s = .host ∧ s.program = w :: ws ∧ decode w = .ok i ∧ hostRuns i s
        ∧ exec i { (nextAgent s).2 with program := ws } = .next t)
    ∨ (moving s = .timer ∧ s.tstate = .running ∧ s.dreq = false ∧ t = tick (nextAgent s).2)
    ∨ (moving s = .dma ∧ s.armed = true ∧ s.dreq = true ∧ s.dSrc.toNat < s.cfg.bufLen
        ∧ t = moveByte (memRead .dma s.dSrc.toNat (nextAgent s).2).1 (memRead .dma s.dSrc.toNat (nextAgent s).2).2)
    ∨ (moving s = .environment ∧ t = resetBlock (nextAgent s).2) := by
  unfold step agentStep at h
  cases ha : (nextAgent s).1 with
  | host =>
    simp only [ha, hostStep, nextAgent_snd_program] at h
    cases hp : s.program with
    | nil =>
      simp only [hp, Host.Outcome.next.injEq] at h
      exact .inl ⟨by simp [moving, ha], h.symm⟩
    | cons w ws =>
      simp only [hp, present] at h
      cases hd : decode w with
      | error e =>
        simp only [hd, raiseFault_eq, Host.Outcome.next.injEq] at h
        exact .inr (.inl ⟨w, ws, e, by simp [moving, ha], rfl, hd, h.symm⟩)
      | ok i =>
        simp only [hd] at h
        exact .inr (.inr (.inl ⟨w, ws, i, by simp [moving, ha], rfl, hd,
          ⟨by simp [moving, ha], by simp [presented, hp, hd]⟩, h⟩))
  | timer =>
    simp only [ha] at h
    split at h <;> rename_i he
    · simp only [tickEnabled, nextAgent_snd_tstate, nextAgent_snd_dreq, Bool.and_eq_true, decide_eq_true_eq,
        Bool.not_eq_true'] at he
      simp only [Host.Outcome.next.injEq] at h
      exact .inr (.inr (.inr (.inl ⟨by simp [moving, ha], he.1, he.2, h.symm⟩)))
    · simp only [Host.Outcome.next.injEq] at h
      exact .inl ⟨by simp [moving, ha], h.symm⟩
  | dma =>
    simp only [ha] at h
    split at h <;> rename_i he
    · simp only [dmaEnabled, nextAgent_snd_armed, nextAgent_snd_dreq, Bool.and_eq_true] at he
      unfold dmaxfer at h
      split at h <;> rename_i hi
      · simp only [indexInBuffer, sourceIndex, nextAgent_snd_dSrc, nextAgent_snd_cfg, decide_eq_true_eq] at hi
        simp only [Host.Outcome.next.injEq, sourceIndex, nextAgent_snd_dSrc] at h
        exact .inr (.inr (.inr (.inr (.inl ⟨by simp [moving, ha], he.1, he.2, hi, h.symm⟩))))
      · cases h
    · simp only [Host.Outcome.next.injEq] at h
      exact .inl ⟨by simp [moving, ha], h.symm⟩
  | environment =>
    simp only [ha, Host.Outcome.next.injEq] at h
    exact .inr (.inr (.inr (.inr (.inr ⟨by simp [moving, ha], h.symm⟩))))

end Sys2Proof.Machine
end

