-- ==== Sys2Proof/Tests/Slice0.lean ====
section
/-! SUPPORT. Tests: the decoder on words written out from R86 and R88, the well-formedness checks, one step per
vector of spec/95_test_vectors.md (the number is in each test's comment), and for every statement with
hypotheses a concrete state and operands that meet them. -/

namespace Sys2Proof.Tests

open Sys2Proof.Machine

/-! ### Helpers -/

/-- The state after reset, FULL profile, one LED: `BUF_LEN = 26`. -/
def blank : State := State.resetWith (Config.full 1)

/-- The next state, if there is one. -/
def nextOf : Outcome → Option State
  | .next t => some t
  | _ => none

/-- What a command leaves, seen through `f`. -/
def sees {α : Type} (f : State → α) (o : Outcome) : Option α := (nextOf o).map f

/-- The timer configured as TCFG leaves it (R141). -/
def timed : State :=
  { blank with sysReady := true, tTop := 29, tPsc := 1, tCha := 5, tChb := 5, pinsel := 1, tstate := .configured }

/-- The idle carrier of T112: SYSINIT and LEDINIT done. -/
def carrier : State :=
  { timed with tstate := .running, dCtl := 0x0D, dLen := 26, dCfgd := true, mem := [(0, 255)] }

/-- The carrier, armed and the frame of a black LED composed, before the first rollover. -/
def streaming : State :=
  { carrier with
    armed := true, dRem := 26
    mem := (0, 255) :: ((List.range 24).map fun k => (k + 1, 10)) ++ [(25, 0)] }

/-- The engine with a request pending at offset 1 (T97). -/
def requested : State :=
  { streaming with dreq := true, tCnt := 0, dSrc := 1, dRem := 25, mem := [(0, 255), (1, 19)] }

/-- A carrier whose counter is about to tick (T60 to T68). -/
def ticking (cnt ccb : Byte) (out armed : Bool) : State :=
  { carrier with tCnt := cnt, tCcb := ccb, out := out, armed := armed, dRem := 26, sched := [.timer] }

/-! ### Well-formedness -/

/-- R91: idx 0..65535. -/
theorem test_bufwr_index_too_wide : (Instr.bufwr 65536 0).wellFormed = false := by decide

theorem test_bufrd_index_too_wide : (Instr.bufrd 65536).wellFormed = false := by decide

/-- R91: n 0..255. -/
theorem test_rdcr_number_too_wide : (Instr.rdcr 256).wellFormed = false := by decide

theorem test_widest_operands_fit :
    (Instr.bufwr 65535 255).wellFormed = true ∧ (Instr.bufrd 65535).wellFormed = true
      ∧ (Instr.rdcr 255).wellFormed = true := by decide

/-! ### Decoding: words written out field by field, `op` 31:24, `a` 23:8, `b` 7:0 -/

theorem test_decode_sysinit : decode 0b00000001_0000000000000000_00000000#32 = .ok .sysinit := by decide

theorem test_decode_encode :
    decode 0b00010000_0000000000000000_00000000#32 = .ok (.encode false)
      ∧ decode 0b00010000_0000000000000000_00000001#32 = .ok (.encode true) := by decide

theorem test_decode_bufinit : decode 0b00010001_0000000000000000_00000000#32 = .ok .bufinit := by decide

/-- R123: `BUFWR 1, 19` is 0x12000113 and `BUFWR 409, 0` is 0x12019900; T10. -/
theorem test_decode_bufwr :
    decode 0b00010010_0000000000000001_00010011#32 = .ok (.bufwr 1 19)
      ∧ decode 0b00010010_0000000110011001_00000000#32 = .ok (.bufwr 409 0)
      ∧ decode 0b00010010_1111111111111111_11111111#32 = .ok (.bufwr 65535 255) := by decide

theorem test_decode_bufrd : decode 0b00010011_0000000000011001_00000000#32 = .ok (.bufrd 25) := by decide

theorem test_decode_tcfg : decode 0b00100000_0000000000000000_00000000#32 = .ok .tcfg := by decide

theorem test_decode_tstart : decode 0b00100001_0000000000000000_00000000#32 = .ok .tstart := by decide

theorem test_decode_dcfg : decode 0b00110000_0000000000000000_00000000#32 = .ok .dcfg := by decide

theorem test_decode_darm : decode 0b00110001_0000000000000000_00000000#32 = .ok .darm := by decide

theorem test_decode_rdcr :
    decode 0b01000000_0000000000000000_00001110#32 = .ok (.rdcr 14)
      ∧ decode 0b01000000_0000000000000000_11111111#32 = .ok (.rdcr 255) := by decide

/-- T2, T3, T11: unlisted opcodes. -/
theorem test_decode_unlisted :
    decode 0x00000000#32 = .error (.unlistedOpcode 0x00) ∧ decode 0xFFFFFFFF#32 = .error (.unlistedOpcode 0xFF)
      ∧ decode 0x02000000#32 = .error (.unlistedOpcode 0x02) ∧ decode 0x14000000#32 = .error (.unlistedOpcode 0x14)
      ∧ decode 0x22000000#32 = .error (.unlistedOpcode 0x22) ∧ decode 0x32000000#32 = .error (.unlistedOpcode 0x32)
      ∧ decode 0x41000000#32 = .error (.unlistedOpcode 0x41) := by decide

/-- T4 to T9: must-be-zero fields. -/
theorem test_decode_nonzero_unused :
    decode 0x10000002#32 = .error (.nonzeroUnusedField 0x10) ∧ decode 0x10000100#32 = .error (.nonzeroUnusedField 0x10)
      ∧ decode 0x20000100#32 = .error (.nonzeroUnusedField 0x20)
      ∧ decode 0x31000001#32 = .error (.nonzeroUnusedField 0x31)
      ∧ decode 0x13000101#32 = .error (.nonzeroUnusedField 0x13)
      ∧ decode 0x40000100#32 = .error (.nonzeroUnusedField 0x40) := by decide

theorem test_table_word :
    decodeTableWord 32 0x12000113 = some (.bufwr 1 19) ∧ decodeTableWord 32 0x10000002 = none := by decide

/-! ### One command -/

/-- T111. -/
theorem test_sysinit : sees (readCr · 0) (exec .sysinit blank) = some 0x01 := by decide

/-- T20, T22. -/
theorem test_encode :
    sees State.resp (exec (.encode true) blank) = some (some 0x13)
      ∧ sees State.resp
          (exec (.encode true) { blank with cfg := { Config.full 1 with low := 80, high := 160 } })
        = some (some 160) := by decide

/-- T21: the answer for 0 is the other code. -/
theorem test_encode_zero : sees State.resp (exec (.encode false) blank) = some (some 0x0A) := by decide

/-- T30. -/
theorem test_bufinit : sees (fun t => (t.mem, t.fault)) (exec .bufinit blank) = some ([(0, 255)], 0) := by decide

/-- T31, and T34: the last index is legal. -/
theorem test_bufwr :
    sees State.mem (exec (.bufwr 1 19) blank) = some [(1, 19)]
      ∧ sees State.mem (exec (.bufwr 25 0) requested) = some [(0, 255), (1, 19), (25, 0)] := by decide

/-- T35. -/
theorem test_bufwr_outside :
    sees (fun t => (t.mem, t.fault)) (exec (.bufwr 26 0) blank) = some ([], 7) := by decide

/-- T32, T36. -/
theorem test_bufrd :
    sees (fun t => (t.resp, t.fault)) (exec (.bufrd 1) requested) = some (some 19, 0)
      ∧ sees (fun t => (t.resp, t.fault)) (exec (.bufrd 26) blank) = some (none, 7) := by decide

/-- T33: some byte is answered and code 10 is recorded. -/
theorem test_bufrd_unwritten :
    sees (fun t => (t.resp.isSome, t.fault)) (exec (.bufrd 1) blank) = some (true, 10) := by decide

/-- T43. -/
theorem test_tcfg :
    sees (fun t => (t.tTop, t.tPsc, t.tCha, t.tChb, t.pinsel, readCr t 0))
      (exec .tcfg { blank with sysReady := true }) = some (0x1D, 0x01, 0x05, 0x05, 0x01, 0x03) := by decide

/-- T48: code 2 before code 3. -/
theorem test_tcfg_order :
    sees (fun t => (t.fault, t.tstate))
      (exec .tcfg { blank with sysReady := true, cfg := { Config.full 1 with period := 19, bufLen := 25 } })
        = some (2, .idle) := by decide

/-- T51. -/
theorem test_tstart : sees (fun t => (t.tCnt, t.out, readCr t 0)) (exec .tstart timed) = some (0, false, 0x05) := by
  decide

/-- T52. -/
theorem test_tstart_running : sees (readCr · 0) (exec .tstart { timed with tstate := .running }) = some 0x85 := by
  decide

/-- T91. -/
theorem test_dcfg :
    sees (fun t => (t.dCtl, readCr t 10, readCr t 11, readCr t 0)) (exec .dcfg blank)
      = some (0x0D, 0x1A, 0x00, 0x08) := by decide

/-- T94. -/
theorem test_dcfg_armed : sees State.fault (exec .dcfg streaming) = some 6 := by decide

/-- T113, T114. -/
theorem test_darm :
    sees (fun t => (readCr t 0, readCr t 14, readCr t 15)) (exec .darm carrier) = some (0x1D, 0x1A, 0x00) := by
  decide

/-- T93: code 8, nothing else. -/
theorem test_darm_in_flight :
    nextOf (exec .darm requested) = some { requested with fault := 8 } := by decide

/-- T112, T115: STATUS and `T_TOP`. -/
theorem test_rdcr :
    sees State.resp (exec (.rdcr 0) carrier) = some (some 0x0D)
      ∧ sees State.resp (exec (.rdcr 2) carrier) = some (some 0x1D) := by decide

/-- T116, with the sticky first code of R211. -/
theorem test_rdcr_outside :
    sees (fun t => (t.resp, t.fault)) (exec (.rdcr 16) blank) = some (none, 9)
      ∧ sees State.fault (exec (.rdcr 16) { blank with fault := 1 }) = some 1 := by decide

/-! ### The configuration record -/

/-- R150, for a given input clock; without a clock no duration (log 16). -/
theorem test_tickLasts (latch gap : ℝ) :
    (Cfg.full 1 24000000 latch gap).tickLasts (1 / 24000000) ∧ ∀ t, ¬ (Cfg.full 1 0 latch gap).tickLasts t := by
  simp [Cfg.tickLasts, Cfg.full, Config.full]

/-! ### One step -/

/-- The next step after `withFetchWord` runs the word. -/
theorem test_withFetchWord_runs_the_word :
    nextOf (step (State.reset.withFetchWord 32 0x01000000)) = some { State.reset with sysReady := true } := by
  decide

/-- T2: an illegal word raises fault 1. -/
theorem test_illegal_word : sees (readCr · 0) (step (State.reset.withFetchWord 32 0)) = some 0x80 := by decide

/-- T61, T63, T64, T65, T66: the match clears, counter zero sets, the request, the clear wins. -/
theorem test_tick :
    sees (fun t => (t.tCnt, t.out, t.dreq)) (step (ticking 18 19 true false)) = some (19, false, false)
      ∧ sees (fun t => (t.tCnt, t.out, t.dreq)) (step (ticking 29 19 false false)) = some (0, true, false)
      ∧ sees (fun t => (t.tCnt, t.out, t.dreq)) (step (ticking 29 10 false true)) = some (0, true, true)
      ∧ sees (fun t => (t.tCnt, t.out, t.dreq)) (step (ticking 29 0 false true)) = some (0, false, true)
      ∧ sees (fun t => (t.tCnt, t.out, t.dreq)) (step (ticking 29 0 true false)) = some (0, false, false) := by
  decide

/-- T71: the 8-bit wrap and the modulo wrap coincide. -/
theorem test_tick_wraps :
    sees (fun t => (t.tCnt, t.out)) (step { ticking 255 80 false false with tTop := 255 }) = some (0, true) := by
  decide

/-- T97, T98. -/
theorem test_dmaxfer :
    sees (fun t => (t.tCcb, t.dSrc, t.dRem, t.dreq, t.armed)) (step { requested with sched := [.dma] })
        = some (19, 2, 24, false, true)
      ∧ sees (fun t => (t.tCcb, t.dSrc, t.dRem, t.dreq, t.armed))
          (step { requested with sched := [.dma], dSrc := 25, dRem := 1, mem := [(25, 0)] })
        = some (0, 26, 0, false, false) := by decide

/-- T99: the step is not abandoned. -/
theorem test_dmaxfer_unwritten :
    sees (fun t => (t.fault, t.dSrc, t.dRem, t.dreq))
      (step { requested with sched := [.dma], mem := [(0, 255)] }) = some (10, 2, 24, false) := by decide

/-- R240. -/
theorem test_reset : sees (fun t => (readCr t 0, readCr t 7, t.mem)) (step { requested with sched := [.environment] })
    = some (0, 0, []) := by decide

/-- T39: most significant bit first, green, red, blue. -/
theorem test_compose_bit_order :
    (compose (Config.full 1) [⟨0x80, 0x01, 0x00⟩]).map (fun is => (is.take 9).drop 6 ++ is.drop 15)
      = some ([.bufwr 7 10, .bufwr 8 10, .bufwr 9 10] ++ [.bufwr 16 19] ++
          [.bufwr 17 10, .bufwr 18 10, .bufwr 19 10, .bufwr 20 10, .bufwr 21 10, .bufwr 22 10, .bufwr 23 10,
           .bufwr 24 10, .bufwr 25 0]) := by decide

/-- The example lines of R91. -/
theorem test_assemble :
    assembleLine (Config.full 1) true ['B', 'U', 'F', 'W', 'R', ' ', '1', ',', ' ', '0', 'x', '1', '3', ' ', ';', 'x']
        = some [.bufwr 1 19]
      ∧ assembleLine (Config.full 1) true ['R', 'D', 'C', 'R', ' ', '2', '5', '6'] = none := by decide

/-! ### Witnesses: states and operands that meet the hypotheses of each statement -/

/-- The host's turn, with the words `ws` to present. -/
def hosting (ws : List Word) (s : State) : State := { s with sched := [.host], program := ws }

/-- `s` on `a`'s turn. -/
def turn (a : Agent) (s : State) : State := { s with sched := [a] }

theorem inv_blank : StateInv blank := by constructor <;> decide

theorem inv_carrier : StateInv carrier := by constructor <;> decide

theorem inv_streaming : StateInv streaming := by constructor <;> decide

theorem inv_requested : StateInv requested := by constructor <;> decide

theorem reset_memory_wf : State.reset.mem.wf = true := by decide

theorem witness_DecodeOfEncode :
    (Instr.encode true).wellFormed = true ∧ (Instr.bufwr 65535 255).wellFormed = true
      ∧ (Instr.bufrd 0).wellFormed = true ∧ (Instr.rdcr 255).wellFormed = true := by decide

theorem witness_EncodeOfDecode : decode 0x12FFFFFF#32 = .ok (.bufwr 65535 255) := by decide

theorem witness_WordIsCommandExactlyWhenItMatchesItsRow :
    opcodeRow (.bufwr 0 0) ∈ opcodeMap ∧ opcodeRow (.rdcr 0) ∈ opcodeMap
      ∧ (opcodeRow (.bufwr 0 0)).matchesWord 0x12FFFFFF = true
      ∧ (opcodeRow (.rdcr 0)).matchesWord 0x12FFFFFF = false := by decide

theorem witness_WordMatchingNoRowRaisesFaultOne :
    (hosting [0x10000002] blank).sched = .host :: [] ∧ (hosting [0x10000002] blank).program = 0x10000002 :: []
      ∧ ∀ row ∈ opcodeMap, row.matchesWord 0x10000002 = false := by decide

theorem witness_StepRunsTheDecodedCommand :
    (hosting [0x31000000] carrier).sched = .host :: [] ∧ (hosting [0x31000000] carrier).program = 0x31000000 :: []
      ∧ decode 0x31000000 = .ok .darm := by decide

theorem witness_DisabledAgentDoesNothing :
    ((turn .timer timed).sched = .timer :: [] ∧ (turn .timer timed).tstate ≠ .running)
      ∧ ((turn .timer requested).sched = .timer :: [] ∧ (turn .timer requested).dreq = true)
      ∧ ((turn .dma carrier).sched = .dma :: [] ∧ (turn .dma carrier).armed = false)
      ∧ ((turn .dma streaming).sched = .dma :: [] ∧ (turn .dma streaming).dreq = false)
      ∧ ((hosting [] blank).sched = .host :: [] ∧ (hosting [] blank).program = []) := by decide

theorem witness_EveryCommandIsAnsweredInEveryState : 0 < blank.cfg.bufLen := by decide

theorem witness_ValidCodesAreOrderedPositiveAndBelowThePeriod :
    configValid (Config.full 1) = true ∧ configValid (Config.full 2730) = true
      ∧ configValid ⟨1, 26, 3, 1, 2, 1⟩ = true ∧ configValid ⟨1, 26, 256, 80, 255, 255⟩ = true := by decide

theorem witness_BufinitWritesTheLeadingSentinel : 0 < streaming.cfg.bufLen := by decide

/-- The last index of the operand, the last of the buffer, the first outside it. -/
theorem witness_BufwrStoresTheByteOrFaultsSeven :
    65535 < 65536 ∧ 25 < blank.cfg.bufLen ∧ blank.cfg.bufLen ≤ 26 := by decide

theorem witness_BufrdAnswersTheEntry :
    65535 < 65536 ∧ (25 < streaming.cfg.bufLen ∧ streaming.mem.read 25 = some 0)
      ∧ (25 < blank.cfg.bufLen ∧ blank.mem.read 25 = none) ∧ blank.cfg.bufLen ≤ 26 := by decide

/-- One state for each of the six clauses: boot order, state order, and the configurations of T44 to T47, T53. -/
theorem witness_TcfgTestsThenProgramsTheTimer :
    blank.sysReady = false ∧ (timed.sysReady = true ∧ timed.tstate ≠ .idle)
      ∧ ({ blank with sysReady := true } : State).sysReady = true ∧ blank.tstate = .idle
      ∧ ¬ ((Config.full 1).high.toNat < 19 ∧ (Config.full 1).low.toNat < 19)
      ∧ ((Config.full 1).high.toNat < 20 ∧ (Config.full 1).low.toNat < 20 ∧ 25 ≠ 24 * (Config.full 1).ledCount + 2)
      ∧ (blank.cfg.bufLen = 24 * blank.cfg.ledCount + 2 ∧ ¬ (1 ≤ (0 : Byte).toNat))
      ∧ configValid ⟨1, 26, 256, 80, 160, 1⟩ = true := by decide

theorem witness_SysinitSetsReady :
    (∃ s t, step s = .next t ∧ moving s ≠ .environment ∧ s.sysReady = true) ∧ blank.sysReady = false
      ∧ Instr.darm ≠ .tcfg ∧ 0 < blank.cfg.bufLen :=
  ⟨⟨ticking 5 19 true false, _, rfl, by decide, by decide⟩, by decide, by decide, by decide⟩

theorem witness_EncodeAnswersTheDurationCode :
    opField 0x10000002 = 0x10 ∧ (0x10000002 : Word).extractLsb' 1 23 ≠ 0
      ∧ opField 0x10800000 = 0x10 ∧ (0x10800000 : Word).extractLsb' 1 23 ≠ 0 := by decide

/-- The three states of the timer; the last tick before the first rollover. -/
theorem witness_TstartRunsTheCounterOrFaultsSix :
    (timed.tstate = .configured ∧ timed.dreq = false ∧ 29 ≤ timed.tTop.toNat)
      ∧ (∃ t, exec .tstart timed = .next t) ∧ blank.tstate ≠ .configured ∧ carrier.tstate ≠ .configured :=
  ⟨by decide, ⟨_, rfl⟩, by decide, by decide⟩

/-- The last clause at the longest legal buffer. -/
theorem witness_DcfgTestsThenConfiguresTheEngine :
    streaming.armed = true
      ∧ (blank.armed = false ∧ ({ Config.full 1 with bufLen := 25 } : Config).bufLen ≠ 24 * 1 + 2)
      ∧ (blank.armed = false ∧ (Config.full 2730).bufLen = 24 * (Config.full 2730).ledCount + 2
          ∧ (Config.full 2730).bufLen < 65536) := by decide

theorem witness_DarmTestsThenArmsTheEngine :
    blank.dCfgd = false ∧ (streaming.dCfgd = true ∧ streaming.armed = true)
      ∧ (carrier.dCfgd = true ∧ carrier.armed = false) := by decide

theorem witness_RdcrAnswersTheRegisterOrFaultsNine : 255 < 256 ∧ 15 < 16 ∧ 16 ≤ 16 := by decide

/-- Two different states that read alike. -/
theorem witness_RegistersShowTheWholeState :
    (∀ n, n < 16 → readCr { carrier with draws := 1 } n = readCr carrier n) ∧ { carrier with draws := 1 } ≠ carrier := by
  decide

theorem witness_AccessOutsideTheBufferStops :
    ({ blank with cfg := { Config.full 1 with bufLen := 0 } } : State).cfg.bufLen = 0
      ∧ ∃ s : State, s.sched = .dma :: [] ∧ s.armed = true ∧ s.dreq = true ∧ s.cfg.bufLen ≤ s.dSrc.toNat :=
  ⟨by decide, { requested with sched := [.dma], dSrc := 26 }, by decide⟩

/-- Every clause: the counter below the top and at it, the match, counter zero, neither. -/
theorem witness_TickCountsComparesAndTriggers :
    (∀ out armed, (ticking 28 29 out armed).sched = .timer :: [] ∧ (ticking 28 29 out armed).tstate = .running
        ∧ (ticking 28 29 out armed).dreq = false ∧ (ticking 28 29 out armed).tCnt ≠ (ticking 28 29 out armed).tTop)
      ∧ (ticking 29 0 false true).tCnt = (ticking 29 0 false true).tTop
      ∧ sees (fun t => decide (t.tCnt = 29)) (step (ticking 28 29 true false)) = some true
      ∧ sees (fun t => decide (t.tCnt ≠ 10 ∧ t.tCnt = 0)) (step (ticking 29 10 true false)) = some true
      ∧ sees (fun t => decide (t.tCnt ≠ 29 ∧ t.tCnt ≠ 0)) (step (ticking 0 29 true false)) = some true := by decide

theorem witness_DmaxferMovesOneByte :
    ((turn .dma requested).sched = .dma :: [] ∧ requested.armed = true ∧ requested.dreq = true
        ∧ requested.dSrc.toNat < requested.cfg.bufLen ∧ requested.mem.read requested.dSrc.toNat = some 19)
      ∧ ({ requested with mem := [] } : State).mem.read 1 = none := by decide

theorem witness_ResetSetsEveryPieceOfState : (turn .environment requested).sched = .environment :: [] := by decide

theorem witness_FirstFaultIsKeptUntilReset :
    ∃ s t, step s = .next t ∧ s.fault ≠ 0 ∧ moving s ≠ .environment :=
  ⟨hosting [0] { blank with fault := 5 }, _, rfl, by decide, by decide⟩

theorem witness_FaultingCommandChangesNothingElse :
    ∃ s t, exec .tcfg s = .next t ∧ t.fault ≠ s.fault ∧ t.fault ≠ 10 := ⟨blank, _, rfl, by decide, by decide⟩

/-- A step for each clause that writes what the clause names. -/
theorem witness_EachRegisterIsWrittenOnlyByItsSteps :
    (∃ s t, step s = .next t ∧ moving s ≠ .environment ∧ t.sysReady ≠ s.sysReady)
      ∧ (∃ s t, step s = .next t ∧ moving s ≠ .environment ∧ t.tTop ≠ s.tTop)
      ∧ (∃ s t, step s = .next t ∧ moving s ≠ .environment ∧ t.tCnt ≠ s.tCnt)
      ∧ (∃ s t, step s = .next t ∧ moving s ≠ .environment ∧ t.tCcb ≠ s.tCcb)
      ∧ (∃ s t, step s = .next t ∧ moving s ≠ .environment ∧ t.out ≠ s.out)
      ∧ (∃ s t, step s = .next t ∧ moving s ≠ .environment ∧ t.dLen ≠ s.dLen)
      ∧ (∃ s t, step s = .next t ∧ moving s ≠ .environment ∧ t.dRem ≠ s.dRem)
      ∧ (∃ s t, step s = .next t ∧ moving s ≠ .environment ∧ t.mem.read 25 ≠ s.mem.read 25) :=
  ⟨⟨hosting [0x01000000] blank, _, rfl, by decide, by decide⟩,
   ⟨hosting [0x20000000] { blank with sysReady := true }, _, rfl, by decide, by decide⟩,
   ⟨ticking 5 19 true false, _, rfl, by decide, by decide⟩,
   ⟨turn .dma requested, _, rfl, by decide, by decide⟩,
   ⟨ticking 18 19 true false, _, rfl, by decide, by decide⟩,
   ⟨hosting [0x30000000] blank, _, rfl, by decide, by decide⟩,
   ⟨hosting [0x31000000] carrier, _, rfl, by decide, by decide⟩,
   ⟨hosting [0x12001900] blank, _, rfl, by decide, by decide⟩⟩

theorem witness_TimerTakesOnlyItsTwoTransitions :
    (∃ s t, step s = .next t ∧ moving s ≠ .environment ∧ s.tstate = .idle ∧ t.tstate ≠ s.tstate)
      ∧ ∃ s t, step s = .next t ∧ moving s ≠ .environment ∧ s.tstate = .configured ∧ t.tstate ≠ s.tstate :=
  ⟨⟨hosting [0x20000000] { blank with sysReady := true }, _, rfl, by decide, by decide, by decide⟩,
   ⟨hosting [0x21000000] timed, _, rfl, by decide, by decide, by decide⟩⟩

theorem witness_TransferEndsOnlyByItsLastByte :
    (∃ s t, step s = .next t ∧ moving s ≠ .environment ∧ s.armed = false ∧ t.armed ≠ s.armed)
      ∧ ∃ s t, step s = .next t ∧ moving s ≠ .environment ∧ s.armed = true ∧ t.armed ≠ s.armed :=
  ⟨⟨hosting [0x31000000] carrier, _, rfl, by decide, by decide, by decide⟩,
   ⟨{ requested with sched := [.dma], dSrc := 25, dRem := 1, mem := [(25, 0)] }, _, rfl, by decide, by decide,
    by decide⟩⟩

theorem witness_RequestRisesOnlyAtAnArmedRollover :
    (∃ s t, step s = .next t ∧ moving s ≠ .environment ∧ t.dreq = true ∧ t.dreq ≠ s.dreq)
      ∧ ∃ s t, step s = .next t ∧ moving s ≠ .environment ∧ t.dreq = false ∧ t.dreq ≠ s.dreq :=
  ⟨⟨ticking 29 10 false true, _, rfl, by decide, by decide, by decide⟩,
   ⟨turn .dma requested, _, rfl, by decide, by decide, by decide⟩⟩

theorem witness_NoStepWritesTheConfiguration : ∃ s t, step s = .next t := ⟨turn .environment requested, _, rfl⟩

theorem witness_ResetMeetsTheInvariant : (Config.full 2730).ledCount ≤ 2730 := by decide

theorem witness_EveryStepKeepsTheInvariant : ∃ s t, StateInv s ∧ step s = .next t :=
  ⟨turn .dma requested, _, by constructor <;> decide, rfl⟩

theorem witness_MachineNeverStops : StateInv requested ∧ 0 < requested.cfg.bufLen := ⟨inv_requested, by decide⟩

theorem witness_NoInterruptIsEverEnabled : StateInv carrier := inv_carrier

theorem witness_PinShowsTheLatchOnceRouted :
    (StateInv carrier ∧ carrier.tstate ≠ .idle) ∧ (StateInv blank ∧ blank.tstate = .idle) :=
  ⟨⟨inv_carrier, by decide⟩, inv_blank, by decide⟩

theorem witness_CanonicalBuffersThatReadAlikeAreEqual :
    Memory.wf ((Memory.write [] 5 7).write 2 9) = true ∧ Memory.wf [(2, 9), (5, 7)] = true
      ∧ ∀ i, ((Memory.write [] 5 7).write 2 9).read i = Memory.read [(2, 9), (5, 7)] i :=
  ⟨by decide, by decide, fun _ => rfl⟩

theorem witness_IdleCarrierStaysLow :
    ∃ s t, StateInv s ∧ s.armed = false ∧ s.tCcb = 0 ∧ s.out = false ∧ step s = .next t :=
  ⟨{ carrier with sched := [.timer], tCnt := 29 }, _, by constructor <;> decide, by decide, by decide, by decide, rfl⟩

/-- The rollover of T63 (`q = p = T_TOP`), with a host step and two further ticks. -/
def periodSchedule (s : State) : State :=
  { s with tCnt := 29, sched := .timer :: ([.host] ++ .dma :: ([.timer, .timer] ++ [])) }

theorem witness_PeriodLemma :
    ∃ s : State, StateInv s ∧ s.tstate = .running ∧ s.dreq = false ∧ s.tCnt = s.tTop
      ∧ s.sched = .timer :: ([.host] ++ .dma :: ([.timer, .timer] ++ []))
      ∧ (∀ a ∈ [Agent.host], a = .host) ∧ .environment ∉ [Agent.timer, .timer]
      ∧ [Agent.timer, .timer].count .timer ≤ s.tTop.toNat ∧ s.tCcb ≠ 0 :=
  ⟨periodSchedule { carrier with tCcb := 29 }, by constructor <;> decide, by decide⟩

/-- The clauses on the line: `p = 0`; `q = T_TOP`; `q = 0` after a nonzero `p`; `q > T_TOP`. -/
theorem witness_PeriodLemma_clauses :
    sees State.tCcb (runSteps 3 (periodSchedule carrier)) = some 0
      ∧ sees State.tCcb (runSteps 3 (periodSchedule { carrier with tCcb := 29 })) = some 29
      ∧ sees State.tCcb (runSteps 3 (periodSchedule { streaming with tCcb := 10, dSrc := 25, dRem := 1 })) = some 0
      ∧ sees State.tCcb (runSteps 3 (periodSchedule { carrier with tCcb := 30 })) = some 30 := by decide

theorem laidOut_streaming : LaidOut streaming := by
  refine ⟨⟨255, by decide, by decide⟩, fun k h1 h2 => ⟨10, ?_, by decide, by decide⟩, by decide⟩
  have h3 : k < 25 := by have : streaming.cfg.bufLen = 26 := by decide
                         omega
  revert h1 h2
  revert h3
  revert k
  decide

/-- Period 0 and the periods after the transfer meet the hypotheses alike, since `k` is free. -/
theorem witness_TransferPutsTheFrameOnTheLine (k : Nat) :
    ∃ s : State, StateInv s ∧ LaidOut s ∧ s.tstate = .running ∧ s.armed = true ∧ s.dreq = false ∧ s.dSrc = 0
      ∧ s.tCcb = 0 ∧ 29 ≤ s.tTop.toNat
      ∧ s.sched = ticks ((s.tTop.toNat - s.tCnt.toNat) + k * s.cfg.period + 29 + 1) ++ [] :=
  ⟨{ streaming with sched := ticks (29 + k * 30 + 29 + 1) ++ [] },
   ⟨inv_streaming.legalCount, inv_streaming.canonical, inv_streaming.insideBuffer, inv_streaming.programmed,
    inv_streaming.unprogrammed, inv_streaming.notRunning, inv_streaming.counting, inv_streaming.configured,
    inv_streaming.unconfigured, inv_streaming.inFlight, inv_streaming.atRest, inv_streaming.requested, inv_streaming.knownFault⟩,
   ⟨laidOut_streaming.leading, laidOut_streaming.data, laidOut_streaming.trailing⟩,
   rfl, rfl, rfl, rfl, rfl, show 29 ≤ streaming.tTop.toNat by decide, rfl⟩

theorem witness_TransferCompletesWithinItsBound :
    StateInv streaming ∧ streaming.tstate = .running ∧ streaming.armed = true ∧ streaming.dreq = false
      ∧ streaming.dSrc = 0 := ⟨inv_streaming, by decide, by decide, by decide, by decide⟩

/-- The first read of a transfer (`k = 0`), at the last tick of its period. -/
theorem witness_EachByteIsStreamedOnceInOrder :
    ∃ s : State, StateInv s ∧ s.tstate = .running ∧ s.armed = true ∧ s.dreq = false ∧ s.dSrc = 0
      ∧ 29 ≤ s.tTop.toNat ∧ s.sched = ticks ((s.tTop.toNat - s.tCnt.toNat) + 0 * s.cfg.period + 29 + 1) ++ [] :=
  ⟨{ streaming with sched := ticks (29 + 0 * 30 + 29 + 1) ++ [] }, by constructor <;> decide, by decide, by decide,
   by decide, by decide, by decide, by decide⟩

/-- Host steps on both sides: a turn before the first rollover, and the first `DMAXFER` (`k = 0`, `j = 0`). -/
theorem witness_EachPeriodStreamsTheNextIndexUnderHostSteps :
    (∃ s : State, StateInv s ∧ s.tstate = .running ∧ s.armed = true ∧ s.dreq = false ∧ s.dSrc = 0
        ∧ s.sched = paced [(1, 1)] ++ [] ∧ [(1, 1)].length ≤ s.tTop.toNat - s.tCnt.toNat)
      ∧ ∃ s : State, StateInv s ∧ s.tstate = .running ∧ s.armed = true ∧ s.dreq = false ∧ s.dSrc = 0
        ∧ s.sched = paced [(2, 1)] ++ [] ∧ 0 < s.cfg.bufLen ∧ 0 + 1 ≠ s.cfg.bufLen
        ∧ [(2, 1)].length = (s.tTop.toNat - s.tCnt.toNat) + 0 * s.cfg.period + 0 + 1 :=
  ⟨⟨{ streaming with sched := paced [(1, 1)] ++ [], tCnt := 28 }, by constructor <;> decide, by decide⟩,
   { streaming with sched := paced [(2, 1)] ++ [], tCnt := 29 }, by constructor <;> decide, by decide⟩

/-- The completing turn: `k + 1 = BUF_LEN` and `j = 0`, with a host step before each of the 751 ticks. -/
theorem witness_EachPeriodStreamsTheNextIndexUnderHostSteps_last :
    25 < streaming.cfg.bufLen ∧ 25 + 1 = streaming.cfg.bufLen
      ∧ (List.replicate 751 (1, 0)).length = (29 - 29) + 25 * streaming.cfg.period + 0 + 1 := by
  simp only [List.length_replicate]; decide

theorem witness_ByteBehindTheOffsetIsNotStreamed :
    ∃ s : State, StateInv s ∧ 0 < s.dSrc.toNat ∧ s.sched = [.dma, .timer] ++ []
      ∧ ∀ a ∈ [Agent.dma, .timer], a = .timer ∨ a = .dma :=
  ⟨{ requested with sched := [.dma, .timer] ++ [] }, by constructor <;> decide, by decide, by decide, by decide⟩

theorem witness_DataIndexIsABijection :
    (2729 < 2730 ∧ 2 < 3 ∧ 7 < 8) ∧ (1 ≤ 65520 ∧ 65520 ≤ 24 * 2730) ∧ dataIndex 2729 2 7 = dataIndex 2729 2 7 := by
  decide

theorem witness_ComposeIsAscendingWritesOrRefused :
    (Config.full 1).bufLen = 24 * (Config.full 1).ledCount + 2 ∧ ([] : List Led).length ≠ (Config.full 1).ledCount
      ∧ [(⟨255, 0, 0⟩ : Led)].length = (Config.full 1).ledCount := by decide

theorem witness_ComposeFillsTheBuffer :
    ∃ is, blank.cfg.bufLen = 24 * blank.cfg.ledCount + 2 ∧ compose blank.cfg [⟨0xC5, 0, 255⟩] = some is :=
  ⟨_, by decide, rfl⟩

theorem witness_BootReachesTheIdleCarrier :
    configValid ⟨2730, 65522, 256, 254, 255, 255⟩ = true
      ∧ [Instr.tcfg, .tstart, .dcfg, .bufinit].Perm ledinit
      ∧ [Instr.tcfg, .tstart, .dcfg, .bufinit].idxOf .tcfg < [Instr.tcfg, .tstart, .dcfg, .bufinit].idxOf .tstart := by
  decide

theorem witness_RefreshComposesThenArms :
    (carrier.cfg.bufLen = 24 * carrier.cfg.ledCount + 2 ∧ [(⟨1, 2, 3⟩ : Led)].length = carrier.cfg.ledCount
        ∧ carrier.dCfgd = true ∧ carrier.armed = false)
      ∧ (streaming.dCfgd = true ∧ streaming.armed = true) := by decide

/-- The frame of one LED, the host's turns alternating with the timer's and the engine's, while a transfer is in
flight; and the same on an engine at rest. -/
theorem witness_RefreshRacesWithTheEngine :
    ∀ s ∈ [streaming, carrier], ∃ (writes : List Instr) (u t : State),
      u = { s with program := commandWords (writes ++ [.darm]) ++ [],
                   sched := (List.replicate 25 [Agent.timer, .host, .dma]).flatten ++ .host :: [] }
      ∧ StateInv u ∧ u.dCfgd = true ∧ compose u.cfg [⟨1, 2, 3⟩] = some writes ∧ runCommands writes u = .next t
      ∧ .environment ∉ (List.replicate 25 [Agent.timer, .host, .dma]).flatten
      ∧ (List.replicate 25 [Agent.timer, .host, .dma]).flatten.count .host = writes.length := by
  intro s hs
  simp only [List.mem_cons, List.not_mem_nil, or_false] at hs
  rcases hs with rfl | rfl
  · exact ⟨(compose (Config.full 1) [⟨1, 2, 3⟩]).getD [], _, _, rfl, ⟨inv_streaming.legalCount, inv_streaming.canonical, inv_streaming.insideBuffer,
      inv_streaming.programmed, inv_streaming.unprogrammed, inv_streaming.notRunning, inv_streaming.counting,
      inv_streaming.configured, inv_streaming.unconfigured, inv_streaming.inFlight, inv_streaming.atRest,
      inv_streaming.requested, inv_streaming.knownFault⟩, rfl, rfl, rfl, by decide,
      by decide⟩
  · exact ⟨(compose (Config.full 1) [⟨1, 2, 3⟩]).getD [], _, _, rfl, ⟨inv_carrier.legalCount, inv_carrier.canonical, inv_carrier.insideBuffer,
      inv_carrier.programmed, inv_carrier.unprogrammed, inv_carrier.notRunning, inv_carrier.counting,
      inv_carrier.configured, inv_carrier.unconfigured, inv_carrier.inFlight, inv_carrier.atRest,
      inv_carrier.requested, inv_carrier.knownFault⟩, rfl, rfl, rfl, by decide,
      by decide⟩

theorem witness_AssembledCommandsDecode :
    (Config.full 1).bufLen = 24 * (Config.full 1).ledCount + 2 ∧ (Config.full 1).ledCount ≤ 2730
      ∧ assembleLine (Config.full 1) true ['D', 'A', 'R', 'M'] = some [.darm] := by decide

end Sys2Proof.Tests
end

section
/-! The configuration record `CFG` is constant for the life of the model (spec/00_scope.md R5), and a host turn
presents the next command word of the program (spec/00_scope.md R11, spec/30_encoding.md R85). -/

namespace Sys2Proof.Machine

/-! #### A host turn -/

/-- A legal word is executed (R85). -/
theorem present_ok {w : Word} {i : Instr} (s : State) (h : decode w = .ok i) : present w s = exec i s := by
  simp only [present, h]

/-- A host that has a word left presents it, and the word is used up (R11). -/
theorem hostStep_cons {s : State} {w : Word} {ws : List Word} (h : s.program = w :: ws) :
    hostStep s = present w { s with program := ws } := by
  simp only [hostStep, h]

/-- A host turn presents the next word; the word and the turn are used up (R11). -/
theorem step_host_cons {s : State} {w : Word} {ws : List Word} {as : List Agent}
    (hs : s.sched = .host :: as) (hp : s.program = w :: ws) :
    step s = present w { s with sched := as, program := ws } :=
  calc step s = hostStep { s with sched := as } := step_cons hs
    _ = present w { s with sched := as, program := ws } := hostStep_cons hp

/-- Settles O6: the host's turn presents its word, and a word that decodes is executed. -/
theorem stepRunsTheDecodedCommand : Obligations.StepRunsTheDecodedCommand := by
  intro s w ws as i hs hp hd
  rw [step_host_cons hs hp, present_ok _ hd]

/-! #### The configuration -/

/-- No command writes the configuration (R5). -/
theorem exec_cfg {i : Instr} {s t : State} (h : exec i s = .next t) : t.cfg = s.cfg := by
  obtain ⟨code, -, rfl⟩ | ⟨-, rfl⟩ | ⟨bit, -, rfl⟩ | ⟨-, -, rfl⟩ | ⟨idx, val, -, -, rfl⟩ | ⟨idx, -, -, rfl⟩
    | ⟨-, -, -, -, rfl⟩ | ⟨-, -, rfl⟩ | ⟨-, -, -, rfl⟩ | ⟨-, -, -, rfl⟩ | ⟨n, -, -, rfl⟩ := exec_cases h <;> simp

/-- Settles O33: by what a step can do; the commands are `exec_cfg`, and RESET keeps `CFG` too. -/
theorem noStepWritesTheConfiguration : Obligations.NoStepWritesTheConfiguration := by
  intro s t h
  obtain ⟨-, rfl⟩ | ⟨w, ws, e, -, -, -, rfl⟩ | ⟨w, ws, i, -, -, -, -, hx⟩ | ⟨-, -, -, rfl⟩ | ⟨-, -, -, -, rfl⟩
    | ⟨-, rfl⟩ := step_cases h
  · -- a turn that passes
    simp
  · -- an illegal word
    simp
  · -- a command
    simpa using exec_cfg hx
  · -- `TICK`
    simp
  · -- `DMAXFER`
    simp
  · -- RESET
    simp

end Sys2Proof.Machine
end

section
/-! The invariant of the state (spec/10_state.md R45): each named update keeps it, and so does every step. -/

namespace Sys2Proof.Machine

/-! #### What leaves the invariant alone -/

/-- A fault leaves a known code in `FAULT` (R211, R212). -/
theorem stickyFault_le {old code : Byte} (ho : old.toNat ≤ 10) (hc : code.toNat ≤ 10) :
    (stickyFault old code).toNat ≤ 10 := by
  unfold stickyFault; split <;> assumption

/-- `MemRead` leaves a known code in `FAULT` (R75). -/
theorem memRead_fault_le {who : Agent} {i : Nat} {s : State} (h : s.fault.toNat ≤ 10) :
    (memRead who i s).2.fault.toNat ≤ 10 := by
  rw [memRead_fault]
  split
  · exact stickyFault_le h (by decide)
  · exact h

/-- The invariant reads neither the model's own fields nor which of the known codes `FAULT` holds. -/
theorem StateInv.congr {s t : State} (h : StateInv s) (hcfg : t.cfg = s.cfg) (hmem : t.mem = s.mem)
    (hready : t.sysReady = s.sysReady) (htimer : sameTimer s t) (hengine : sameEngine s t)
    (hfault : t.fault.toNat ≤ 10) : StateInv t := by
  cases s; cases t
  simp only [sameTimer, sameEngine] at *
  obtain ⟨rfl, rfl, rfl, rfl, rfl, rfl, rfl, rfl, rfl⟩ := htimer
  obtain ⟨rfl, rfl, rfl, rfl, rfl, rfl, rfl⟩ := hengine
  subst hcfg hmem hready
  exact { h with knownFault := hfault }

/-- A turn used up. -/
theorem StateInv.afterTurn {s : State} (h : StateInv s) : StateInv (nextAgent s).2 :=
  h.congr (by simp) (by simp) (by simp) (by simp [sameTimer]) (by simp [sameEngine]) (by simpa using h.knownFault)

/-- A command word used up. -/
theorem StateInv.withProgram {s : State} (h : StateInv s) (ws : List Word) : StateInv { s with program := ws } :=
  { h with }

/-- A response handed back, or none. -/
theorem StateInv.withResp {s : State} (h : StateInv s) (r : Option Byte) : StateInv { s with resp := r } :=
  { h with }

/-- `raise Fault(code)` (R211). -/
theorem StateInv.afterFault {s : State} (h : StateInv s) (code : FaultCode) : StateInv (faultState code s) :=
  h.congr (by simp) (by simp) (by simp) (by simp [sameTimer]) (by simp [sameEngine])
    (by simpa [stickyFault] using stickyFault_le h.knownFault code.toByte_le)

/-- `MemRead` (R75). -/
theorem StateInv.afterRead {s : State} (h : StateInv s) (who : Agent) (i : Nat) : StateInv (memRead who i s).2 :=
  h.congr (by simp) (by simp) (by simp) (by simp [sameTimer]) (by simp [sameEngine])
    (memRead_fault_le h.knownFault)

/-! #### The commands -/

/-- SYSINIT (R190). -/
theorem StateInv.afterSysinit {s : State} (h : StateInv s) : StateInv { s with sysReady := true } :=
  { h with
    programmed := fun ht => by
      obtain ⟨htop, hpsc, hcha, hchb, hpin, -, hvalid⟩ := h.programmed ht
      exact ⟨htop, hpsc, hcha, hchb, hpin, rfl, hvalid⟩ }

/-- `MemWrite` inside the buffer (R75). -/
theorem StateInv.afterWrite {s : State} (h : StateInv s) (who : Agent) {i : Nat} (v : Byte)
    (hi : i < s.cfg.bufLen) : StateInv (memWrite who i v s) :=
  { h with
    canonical := Memory.wf_write s.mem i v h.canonical
    insideBuffer := fun c hc => by
      obtain rfl | hc := Memory.mem_write (show c ∈ s.mem.write i v from hc)
      · exact hi
      · exact h.insideBuffer c hc }

/-- TCFG's effect (R141): what it programs fits the registers under a valid configuration. -/
theorem StateInv.afterTcfg {s : State} (h : StateInv s) (hready : s.sysReady = true)
    (hidle : s.tstate = .idle) (hvalid : configValid s.cfg = true) : StateInv (programTimer s) :=
  have hrest := h.notRunning (by simp [hidle])
  { h with
    programmed := fun _ => by
      obtain ⟨-, -, -, -, -, hper, hper', hpsc, hpsc', -⟩ := (configValid_iff s.cfg).1 hvalid
      exact ⟨by simp; omega, by simp; omega, rfl, rfl, rfl, hready, hvalid⟩
    unprogrammed := nofun
    notRunning := fun _ => hrest
    counting := nofun
    requested := fun hd => by
      obtain ⟨-, -, -, hreq, -⟩ := hrest
      simp [hreq] at hd }

/-- TSTART's effect (R142). -/
theorem StateInv.afterTstart {s : State} (h : StateInv s) (hconf : s.tstate = .configured) :
    StateInv { s with tCnt := 0, tstate := .running } :=
  { h with
    programmed := fun _ => h.programmed (by simp [hconf])
    unprogrammed := nofun
    notRunning := fun hr => absurd rfl hr
    counting := fun _ => Nat.zero_le _
    requested := fun hd => ⟨(h.requested hd).1, rfl, rfl⟩ }

/-- A buffer length that DCFG accepts fits `D_LEN`, since the LED count is legal (R5, R166). -/
theorem StateInv.toNat_lengthRegister {s : State} (h : StateInv s)
    (hlen : s.cfg.bufLen = 24 * s.cfg.ledCount + 2) : (lengthRegister s.cfg).toNat = s.cfg.bufLen :=
  lengthRegister_toNat (by have := h.legalCount; omega)

/-- DCFG's effect (R166): at rest the offset still points at an end of the buffer, since `D_LEN` either had the
value already or was not yet written. -/
theorem StateInv.afterDcfg {s : State} (h : StateInv s) (harm : s.armed = false)
    (hlen : s.cfg.bufLen = 24 * s.cfg.ledCount + 2) :
    StateInv { s with dCtl := 0x0D, dLen := lengthRegister s.cfg, dCfgd := true } :=
  have hreg := h.toNat_lengthRegister hlen
  { h with
    configured := fun _ => ⟨rfl, hreg, hlen⟩
    unconfigured := nofun
    inFlight := fun ha => by simp [harm] at ha
    atRest := fun _ => by
      obtain ⟨hrem, hsrc⟩ := h.atRest harm
      refine ⟨hrem, ?_⟩
      cases hc : s.dCfgd with
      | false => exact .inl (h.unconfigured hc).2.2
      | true =>
        have hsame : s.dLen = lengthRegister s.cfg := BitVec.eq_of_toNat_eq (by rw [hreg, (h.configured hc).2.1])
        exact hsame ▸ hsrc }

/-- DARM's effect (R167): the transfer is as long as the buffer, which has its two sentinels at least. -/
theorem StateInv.afterDarm {s : State} (h : StateInv s) (hconf : s.dCfgd = true) :
    StateInv { s with dSrc := 0, dRem := s.dLen, armed := true } :=
  { h with
    notRunning := fun hr => by
      obtain ⟨hcnt, hout, hccb, hreq, -⟩ := h.notRunning hr
      exact ⟨hcnt, hout, hccb, hreq, rfl⟩
    unconfigured := fun hc => by simp [hconf] at hc
    inFlight := fun _ => by
      obtain ⟨-, hlen, hbuf⟩ := h.configured hconf
      exact ⟨hconf, by simp only; omega, le_rfl, by simp⟩
    atRest := nofun
    requested := fun hd => ⟨rfl, (h.requested hd).2⟩ }

/-- No command breaks the invariant. -/
theorem StateInv.afterExec {i : Instr} {s t : State} (h : StateInv s) (hx : exec i s = .next t) : StateInv t := by
  obtain ⟨code, -, rfl⟩ | ⟨-, rfl⟩ | ⟨bit, -, rfl⟩ | ⟨-, hi, rfl⟩ | ⟨idx, val, -, hi, rfl⟩ | ⟨idx, -, -, rfl⟩
    | ⟨-, hready, hidle, hvalid, rfl⟩ | ⟨-, hconf, rfl⟩ | ⟨-, harm, hlen, rfl⟩ | ⟨-, hconf, -, rfl⟩
    | ⟨n, -, -, rfl⟩ := exec_cases hx
  · -- a fault
    exact h.afterFault code
  · -- SYSINIT
    exact h.afterSysinit.withResp none
  · -- ENCODE
    exact h.withResp _
  · -- BUFINIT
    exact (h.afterWrite .host 255 hi).withResp none
  · -- BUFWR
    exact (h.afterWrite .host val hi).withResp none
  · -- BUFRD
    exact (h.afterRead .host idx).withResp _
  · -- TCFG
    exact (h.afterTcfg hready hidle hvalid).withResp none
  · -- TSTART
    exact (h.afterTstart hconf).withResp none
  · -- DCFG
    exact (h.afterDcfg harm hlen).withResp none
  · -- DARM
    exact (h.afterDarm hconf).withResp none
  · -- RDCR
    exact h.withResp _

/-! #### The autonomous steps and RESET -/

/-- The counter stays in `0 .. T_TOP` (R29, R143). -/
theorem nextCount_le {s : State} (h : s.tCnt.toNat ≤ s.tTop.toNat) : (nextCount s).toNat ≤ s.tTop.toNat := by
  unfold nextCount rollsOver
  split <;> rename_i hr
  · simp
  · have hne : s.tCnt ≠ s.tTop := by simpa using hr
    bv_omega

/-- A request after a tick: one raised by a rollover that finds the engine armed, or one that stood before
(R144). -/
theorem nextRequest_eq_true_iff (s : State) :
    nextRequest s = true ↔ (s.tCnt = s.tTop ∧ s.armed = true) ∨ s.dreq = true := by
  unfold nextRequest rollsOver
  split <;> simp_all

/-- `TICK` (R143, R144). -/
theorem StateInv.afterTick {s : State} (h : StateInv s) (hrun : s.tstate = .running) (hreq : s.dreq = false) :
    StateInv (tick s) :=
  { h with
    notRunning := fun hr => absurd hrun hr
    counting := fun _ => nextCount_le (h.counting hrun)
    requested := fun hd => by
      obtain ⟨hroll, harm⟩ | hd' := (nextRequest_eq_true_iff s).1 hd
      · exact ⟨harm, hrun, by simp [nextCount, rollsOver, hroll]⟩
      · simp [hreq] at hd' }

/-- `if CR.D_REM = 0 then CR.ARMED <- 0` (R169), for an engine that was armed. -/
theorem stillArmed_true_iff (rem : Half) : stillArmed rem true = true ↔ rem ≠ 0 := by
  unfold stillArmed; split <;> simp_all

/-- The writes of `DMAXFER` (R169): the offset and the count keep their sum, and the last byte leaves the offset at
the end of the buffer. -/
theorem StateInv.afterMove {s : State} (h : StateInv s) (harm : s.armed = true) (hreq : s.dreq = true) (v : Byte) :
    StateInv (moveByte v s) := by
  obtain ⟨hconf, hpos, hle, hsrc⟩ := h.inFlight harm
  obtain ⟨-, hrun, -⟩ := h.requested hreq
  have hstill : stillArmed (countDown s.dRem) s.armed = true ↔ s.dRem - 1 ≠ 0 := by
    rw [harm, stillArmed_true_iff, countDown]
  exact
    { h with
      notRunning := fun hr => absurd hrun hr
      unconfigured := fun hc => by simp [hconf] at hc
      inFlight := fun ha => by
        have hne := hstill.1 ha
        refine ⟨hconf, ?_⟩
        simp only [moveByte_dRem, moveByte_dSrc, moveByte_dLen, countDown, advanceSource]
        bv_omega
      atRest := fun ha => by
        have hzero : s.dRem - 1 = 0 := by_contra fun hne => by simp [hstill.2 hne] at ha
        refine ⟨hzero, .inr ?_⟩
        simp only [moveByte_dSrc, moveByte_dLen, advanceSource]
        bv_omega
      requested := nofun }

/-- Settles O34: in the state after reset every clause is about a 0. -/
theorem resetMeetsTheInvariant : Obligations.ResetMeetsTheInvariant := by
  intro c hc
  constructor <;> simp [State.resetWith, Memory.wf, hc]

/-- Settles O35: by what a step can do, each effect keeping the invariant. -/
theorem everyStepKeepsTheInvariant : Obligations.EveryStepKeepsTheInvariant := by
  intro s t h hs
  have hturn := h.afterTurn
  obtain ⟨-, rfl⟩ | ⟨w, ws, e, -, -, -, rfl⟩ | ⟨w, ws, i, -, -, -, -, hx⟩ | ⟨-, hrun, hreq, rfl⟩
    | ⟨-, harm, hreq, -, rfl⟩ | ⟨-, rfl⟩ := step_cases hs
  · -- a turn that passes
    exact hturn
  · -- an illegal word
    exact (hturn.withProgram ws).afterFault .illegalCommand
  · -- a command
    exact (hturn.withProgram ws).afterExec hx
  · -- `TICK`
    exact hturn.afterTick (by simpa using hrun) (by simpa using hreq)
  · -- `DMAXFER`
    exact (hturn.afterRead .dma _).afterMove (by simpa using harm) (by simpa using hreq) _
  · -- RESET
    exact { resetMeetsTheInvariant _ hturn.legalCount with }

end Sys2Proof.Machine
end

section
/-! What a step leaves unchanged, short of RESET: `FAULT` once it holds a code, the request, and each register,
latch and buffer entry but those its own steps write (spec/10_state.md R24, R26, R41). -/

namespace Sys2Proof.Machine

/-! #### FAULT -/

/-- A code once recorded stays (R26, R211). -/
theorem stickyFault_of_ne_zero {old : Byte} (code : Byte) (h : old ≠ 0) : stickyFault old code = old :=
  if_neg h

/-- `raise Fault(code)` keeps a code recorded before (R211). -/
theorem faultState_keeps_fault {s : State} (code : FaultCode) (h : s.fault ≠ 0) :
    (faultState code s).fault = s.fault :=
  (faultState_fault code s).trans (if_neg h)

/-- `MemRead` keeps a code recorded before (R75, R211). -/
theorem memRead_keeps_fault {s : State} (who : Agent) (i : Nat) (h : s.fault ≠ 0) :
    (memRead who i s).2.fault = s.fault := by
  rw [memRead_fault, stickyFault_of_ne_zero _ h, ite_self]

/-- No command changes a nonzero `FAULT`. -/
theorem exec_keeps_fault {i : Instr} {s t : State} (hx : exec i s = .next t) (h : s.fault ≠ 0) :
    t.fault = s.fault := by
  obtain ⟨code, -, rfl⟩ | ⟨-, rfl⟩ | ⟨bit, -, rfl⟩ | ⟨-, -, rfl⟩ | ⟨idx, val, -, -, rfl⟩ | ⟨idx, -, -, rfl⟩
    | ⟨-, -, -, -, rfl⟩ | ⟨-, -, rfl⟩ | ⟨-, -, -, rfl⟩ | ⟨-, -, -, rfl⟩ | ⟨n, -, -, rfl⟩ := exec_cases hx
  exacts [faultState_keeps_fault code h, rfl, rfl, rfl, rfl, memRead_keeps_fault .host idx h, rfl, rfl, rfl, rfl, rfl]

/-- Settles O27: a step writes `FAULT` only by a fault or a `MemRead`, and both keep a code recorded before. -/
theorem firstFaultIsKeptUntilReset : Obligations.FirstFaultIsKeptUntilReset := by
  intro s t hs h hm
  obtain ⟨-, rfl⟩ | ⟨w, ws, e, -, -, -, rfl⟩ | ⟨w, ws, i, -, -, -, -, hx⟩ | ⟨-, -, -, rfl⟩ | ⟨-, -, -, -, rfl⟩
    | ⟨henv, -⟩ := step_cases hs
  · -- a turn that passes
    simp
  · -- an illegal word
    simpa using faultState_keeps_fault .illegalCommand (s := (nextAgent s).2) (by simpa using h)
  · -- a command
    simpa using exec_keeps_fault hx (by simpa using h)
  · -- `TICK`
    simp
  · -- `DMAXFER`
    simpa using memRead_keeps_fault .dma s.dSrc.toNat (s := (nextAgent s).2) (by simpa using h)
  · -- RESET
    exact absurd henv hm

/-! #### The request -/

/-- No command raises or clears the request (R41). -/
theorem exec_dreq {i : Instr} {s t : State} (hx : exec i s = .next t) : t.dreq = s.dreq := by
  obtain ⟨code, -, rfl⟩ | ⟨-, rfl⟩ | ⟨bit, -, rfl⟩ | ⟨-, -, rfl⟩ | ⟨idx, val, -, -, rfl⟩ | ⟨idx, -, -, rfl⟩
    | ⟨-, -, -, -, rfl⟩ | ⟨-, -, rfl⟩ | ⟨-, -, -, rfl⟩ | ⟨-, -, -, rfl⟩ | ⟨n, -, -, rfl⟩ := exec_cases hx <;> simp

/-- Settles O32: short of RESET only `TICK` and `DMAXFER` write the request. -/
theorem requestRisesOnlyAtAnArmedRollover : Obligations.RequestRisesOnlyAtAnArmedRollover := by
  intro s t hs hm hne
  obtain ⟨-, rfl⟩ | ⟨w, ws, e, -, -, -, rfl⟩ | ⟨w, ws, i, -, -, -, -, hx⟩ | ⟨htimer, hrun, hreq, rfl⟩
    | ⟨hdma, harm, -, -, rfl⟩ | ⟨henv, -⟩ := step_cases hs
  · -- a turn that passes
    simp at hne
  · -- an illegal word
    simp at hne
  · -- a command
    exact absurd (by simpa using exec_dreq hx) hne
  · -- `TICK`: a change is a rise, since no request stood before
    have hrise : nextRequest (nextAgent s).2 = true := by simpa [hreq] using hne
    have hroll : s.tCnt = s.tTop ∧ s.armed = true := by simpa [nextRequest_eq_true_iff, hreq] using hrise
    exact .inl ⟨hrise, htimer, hrun, hroll⟩
  · -- `DMAXFER`
    exact .inr ⟨rfl, hdma, harm⟩
  · -- RESET
    exact absurd henv hm

/-! #### The registers, the latch and the buffer -/

/-- A write changes no entry but its own. -/
theorem Memory.eq_of_read_write_ne {m : Memory} {i j : Nat} {v : Byte} (h : (m.write i v).read j ≠ m.read j) :
    j = i :=
  by_contra fun hj => h (Memory.read_write_of_ne m v hj)

/-- The writers among the commands, as R24, R32, R34, R42 and R43 name them. -/
theorem exec_writers {i : Instr} {s t : State} (hx : exec i s = .next t) :
    (t.sysReady ≠ s.sysReady → i = .sysinit)
    ∧ (t.tTop ≠ s.tTop ∨ t.tPsc ≠ s.tPsc ∨ t.tCha ≠ s.tCha ∨ t.tChb ≠ s.tChb ∨ t.pinsel ≠ s.pinsel → i = .tcfg)
    ∧ (t.tCnt ≠ s.tCnt → i = .tstart)
    ∧ t.tCcb = s.tCcb ∧ t.out = s.out
    ∧ (t.dCtl ≠ s.dCtl ∨ t.dLen ≠ s.dLen ∨ t.dCfgd ≠ s.dCfgd → i = .dcfg)
    ∧ (t.dSrc ≠ s.dSrc ∨ t.dRem ≠ s.dRem → i = .darm)
    ∧ ∀ j, t.mem.read j ≠ s.mem.read j → (i = .bufinit ∧ j = 0) ∨ ∃ v, i = .bufwr j v := by
  obtain ⟨code, -, rfl⟩ | ⟨rfl, rfl⟩ | ⟨bit, -, rfl⟩ | ⟨rfl, -, rfl⟩ | ⟨idx, val, rfl, -, rfl⟩ | ⟨idx, -, -, rfl⟩
    | ⟨rfl, -, -, -, rfl⟩ | ⟨rfl, -, rfl⟩ | ⟨rfl, -, -, rfl⟩ | ⟨rfl, -, -, rfl⟩ | ⟨n, -, -, rfl⟩ := exec_cases hx
  · -- a fault
    simp
  · -- SYSINIT
    simp
  · -- ENCODE
    simp
  · -- BUFINIT
    simpa using fun j => Memory.eq_of_read_write_ne (m := s.mem) (i := 0) (v := 255) (j := j)
  · -- BUFWR
    simpa [eq_comm] using fun j => Memory.eq_of_read_write_ne (m := s.mem) (i := idx) (v := val) (j := j)
  · -- BUFRD
    simp
  · -- TCFG
    simp
  · -- TSTART
    simp
  · -- DCFG
    simp
  · -- DARM
    simp
  · -- RDCR
    simp

/-- Settles O29: a change shows the step; which command it was is `exec_writers`. -/
theorem eachRegisterIsWrittenOnlyByItsSteps : Obligations.EachRegisterIsWrittenOnlyByItsSteps := by
  intro s t hs hm
  obtain ⟨-, rfl⟩ | ⟨w, ws, e, -, -, -, rfl⟩ | ⟨w, ws, i, -, -, -, hrun, hx⟩ | ⟨htimer, -, -, rfl⟩
    | ⟨hdma, -, -, -, rfl⟩ | ⟨henv, -⟩ := step_cases hs
  · -- a turn that passes
    simp
  · -- an illegal word
    simp
  · -- a command
    obtain ⟨hready, htcfg, hcnt, hccb, hout, hdcfg, hdarm, hmem⟩ := exec_writers hx
    refine ⟨fun h => hready (by simpa using h) ▸ hrun, fun h => htcfg (by simpa using h) ▸ hrun,
      fun h => .inl (hcnt (by simpa using h) ▸ hrun), fun h => absurd (by simpa using hccb) h,
      fun h => absurd (by simpa using hout) h, fun h => hdcfg (by simpa using h) ▸ hrun,
      fun h => .inl (hdarm (by simpa using h) ▸ hrun), fun j h => ?_⟩
    obtain ⟨rfl, rfl⟩ | ⟨v, rfl⟩ := hmem j (by simpa using h)
    · exact .inl ⟨hrun, rfl⟩
    · exact .inr ⟨v, hrun⟩
  · -- `TICK`
    simp [htimer]
  · -- `DMAXFER`
    simp [hdma]
  · -- RESET
    exact absurd henv hm

end Sys2Proof.Machine
end

section
/-! The canonical form of the duration buffer (spec/10_state.md R43, R44): a sorted list, which what it reads
determines. -/

namespace Sys2Proof.Machine

/-- The canonical form as a sorted list. -/
theorem Memory.wf_iff_pairwise (m : Memory) : m.wf = true ↔ m.Pairwise fun c d => c.1 < d.1 := by
  induction m with
  | nil => simp [Memory.wf]
  | cons c rest ih =>
    rw [Memory.wf_cons, ih, List.pairwise_cons]
    refine and_congr_left fun hrest => ⟨fun h d hd => ?_, fun h d hd => h d (List.mem_of_mem_head? hd)⟩
    cases rest with
    | nil => simp at hd
    | cons e rest =>
      have hce : c.1 < e.1 := h e (by simp)
      obtain rfl | hd := List.mem_cons.1 hd
      · exact hce
      · exact hce.trans (List.rel_of_pairwise_cons hrest hd)

/-- In canonical form an entry reads as the byte it is listed with. -/
theorem Memory.read_eq_some_iff {m : Memory} (h : m.wf = true) (i : Nat) (b : Byte) :
    m.read i = some b ↔ (i, b) ∈ m := by
  refine ⟨Memory.listed_of_read, fun hmem => ?_⟩
  rw [Memory.wf_iff_pairwise] at h
  induction m with
  | nil => simp at hmem
  | cons c rest ih =>
    obtain ⟨j, v⟩ := c
    obtain ⟨hlt, hrest⟩ := List.pairwise_cons.1 h
    obtain heq | hmem := List.mem_cons.1 hmem
    · cases heq
      simp [Memory.read]
    · have hne : i ≠ j := (hlt _ hmem).ne'
      simp [Memory.read, hne, ih hrest hmem]

/-- Settles O39: two sorted lists with the same members are the same list. -/
theorem canonicalBuffersThatReadAlikeAreEqual : Obligations.CanonicalBuffersThatReadAlikeAreEqual := by
  intro m m' h h' hread
  have hmem (c : Host.Cell) : c ∈ m ↔ c ∈ m' := by
    rw [← Memory.read_eq_some_iff h, ← Memory.read_eq_some_iff h', hread]
  have : Std.Irrefl fun c d : Host.Cell => c.1 < d.1 := ⟨fun c => lt_irrefl c.1⟩
  exact ((Memory.wf_iff_pairwise m).1 h).eq_of_mem_iff ((Memory.wf_iff_pairwise m').1 h') hmem

end Sys2Proof.Machine
end

section
/-! What the register file and the pin show (spec/10_state.md R24, R25, R33, R34, R46). -/

namespace Sys2Proof.Machine

/-! #### The status view -/

/-- The fields of `CR0 STATUS`, from bit 0 up (R25). -/
theorem status_fields (s : State) :
    (status s).getLsbD 0 = s.sysReady ∧ (status s).extractLsb' 1 2 = s.tstate.code
      ∧ (status s).getLsbD 3 = s.dCfgd ∧ (status s).getLsbD 4 = s.armed ∧ (status s).getLsbD 5 = s.dreq
      ∧ (status s).getLsbD 6 = s.out ∧ (status s).getLsbD 7 = faulted s := by
  have htstate : (status s).extractLsb' 1 2 = s.tstate.code :=
    BitVec.eq_of_getLsbD_eq fun i hi => by unfold status; grind
  refine ⟨?_, htstate, ?_, ?_, ?_, ?_, ?_⟩
  all_goals simp only [status, BitVec.getLsbD_append, BitVec.getLsbD_ofBool]; simp

/-- The timer states have different numbers (R35). -/
theorem TState.code_inj {a b : TState} : a.code = b.code ↔ a = b := by
  cases a <;> cases b <;> decide

/-- The number 3 is no timer state (R25). -/
theorem TState.code_ne_three (a : TState) : a.code ≠ 3 := by
  cases a <;> decide

/-- After reset every register reads 0 (R46). -/
theorem readCr_resetWith (c : Config) (n : Nat) : readCr (State.resetWith c) n = 0 := by
  unfold readCr
  split <;> simp [State.resetWith, status, faulted, TState.code, lowByte, highByte]

/-- Settles O20: by the fields of the view. -/
theorem statusShowsEachFlagAtItsBit : Obligations.StatusShowsEachFlagAtItsBit := by
  refine ⟨fun c => readCr_resetWith c 0, fun s => ?_⟩
  obtain ⟨hready, htstate, hcfgd, harmed, hdreq, hout, hfault⟩ := status_fields s
  have hcode (a : TState) : s.tstate.code = a.code ↔ s.tstate = a := TState.code_inj
  simp only [readCr, htstate]
  exact ⟨hready, hcode .idle, hcode .configured, hcode .running, s.tstate.code_ne_three, hcfgd, harmed, hdreq, hout,
    by rw [hfault]; simp [faulted]⟩

/-! #### The register file -/

/-- A 16-bit register is its two bytes (R24, R63). -/
theorem highByte_append_lowByte (h : Half) : highByte h ++ lowByte h = h := by
  unfold highByte lowByte; ext i hi; simp; grind

/-- Two 16-bit registers with the same bytes are equal. -/
theorem half_eq_of_bytes {h h' : Half} (hlow : lowByte h = lowByte h') (hhigh : highByte h = highByte h') :
    h = h' := by
  rw [← highByte_append_lowByte h, hlow, hhigh, highByte_append_lowByte]

/-- Settles O21: the flags are fields of `STATUS`, every other register reads as it stands. -/
theorem registersShowTheWholeState : Obligations.RegistersShowTheWholeState := by
  intro s t h
  have hstatus : status t = status s := h 0 (by decide)
  obtain ⟨hready, htstate, hcfgd, harmed, hdreq, hout, -⟩ := status_fields s
  obtain ⟨hready', htstate', hcfgd', harmed', hdreq', hout', -⟩ := status_fields t
  rw [hstatus] at hready' htstate' hcfgd' harmed' hdreq' hout'
  refine ⟨hready'.symm.trans hready, h 1 (by decide), ?timer, ?engine⟩
  case timer =>
    exact ⟨TState.code_inj.1 (htstate'.symm.trans htstate), h 2 (by decide), h 3 (by decide), h 4 (by decide),
      h 5 (by decide), h 6 (by decide), h 7 (by decide), h 8 (by decide), hout'.symm.trans hout⟩
  case engine =>
    exact ⟨h 9 (by decide), half_eq_of_bytes (h 10 (by decide)) (h 11 (by decide)),
      half_eq_of_bytes (h 12 (by decide)) (h 13 (by decide)), half_eq_of_bytes (h 14 (by decide)) (h 15 (by decide)),
      hcfgd'.symm.trans hcfgd, harmed'.symm.trans harmed, hdreq'.symm.trans hdreq⟩

/-- Settles O26: the registers by `readCr_resetWith`, the rest by the reset values of R46. -/
theorem stateAfterResetIsAllZero : Obligations.StateAfterResetIsAllZero :=
  fun c => ⟨fun n _ => readCr_resetWith c n, fun _ => rfl, rfl, rfl,
    by simp [pinLevel, pinSelected, State.resetWith]⟩

/-! #### The pin -/

/-- Settles O38: `PINSEL` holds 1 from TCFG on and 0 before it. -/
theorem pinShowsTheLatchOnceRouted : Obligations.PinShowsTheLatchOnceRouted := by
  refine fun s h => ⟨fun ht => ?_, fun ht => ?_⟩
  · obtain ⟨-, -, -, -, hpin, -⟩ := h.programmed ht
    simp [pinLevel, pinSelected, hpin]
  · obtain ⟨-, -, -, -, hpin⟩ := h.unprogrammed ht
    simp [pinLevel, pinSelected, hpin]

end Sys2Proof.Machine
end

section
/-! The buffer address space (spec/20_memory.md R61, R70, R75): an access outside the buffer stops the model, and
the byte a `DMAXFER` reads does not depend on the entries behind the source offset. -/

namespace Sys2Proof.Machine

/-! #### Inside the buffer and outside it -/

/-- BUFINIT where entry 0 lies outside the buffer (R61, R122). -/
theorem execBufinit_outside {s : State} (h : s.cfg.bufLen = 0) : execBufinit s = .fault (.noSuchCell 0) := by
  simp [execBufinit, indexInBuffer, leadingIndex, h]

/-- `DMAXFER` with a source offset inside the buffer (R169). -/
theorem dmaxfer_inside {s : State} (h : s.dSrc.toNat < s.cfg.bufLen) :
    dmaxfer s = .next (moveByte (memRead .dma s.dSrc.toNat s).1 (memRead .dma s.dSrc.toNat s).2) :=
  if_pos (decide_eq_true h)

/-- `DMAXFER` with a source offset outside the buffer (R61, R169). -/
theorem dmaxfer_outside {s : State} (h : s.cfg.bufLen ≤ s.dSrc.toNat) :
    dmaxfer s = .fault (.noSuchCell s.dSrc.toNat) :=
  if_neg (mt of_decide_eq_true h.not_gt)

/-- The engine's turn where `DMAXFER` is enabled (R169). -/
theorem agentStep_dma {s : State} (harm : s.armed = true) (hreq : s.dreq = true) :
    agentStep .dma s = dmaxfer s := by
  simp [agentStep, dmaEnabled, harm, hreq]

/-- Settles O22: both accesses are made at an index the buffer does not hold. -/
theorem accessOutsideTheBufferStops : Obligations.AccessOutsideTheBufferStops := by
  refine ⟨fun s h => execBufinit_outside h, fun s as hs harm hreq hout => ?_⟩
  calc step s = agentStep .dma { s with sched := as } := step_cons hs
    _ = dmaxfer { s with sched := as } := agentStep_dma harm hreq
    _ = .fault (.noSuchCell s.dSrc.toNat) := dmaxfer_outside hout

/-! #### A byte behind the source offset -/

/-- The state with the byte `v` in buffer entry `j`, and nothing else changed. -/
def withByte (j : Nat) (v : Byte) (s : State) : State := { s with mem := s.mem.write j v }

/-- Recording a fault writes no buffer entry (R211). -/
theorem recordFault_withByte (code : FaultCode) (j : Nat) (v : Byte) (s : State) :
    recordFault code (withByte j v s) = withByte j v (recordFault code s) := by
  have hfault : (withByte j v s).fault = s.fault := rfl
  unfold recordFault
  rw [hfault]
  split <;> rfl

/-- A `MemRead` of another entry does not see the byte (R69, R75). -/
theorem memRead_withByte_of_ne (who : Agent) {i j : Nat} (v : Byte) (s : State) (h : i ≠ j) :
    memRead who i (withByte j v s) = ((memRead who i s).1, withByte j v (memRead who i s).2) := by
  have hread : (withByte j v s).mem.read i = s.mem.read i := Memory.read_write_of_ne s.mem v h
  cases hi : s.mem.read i with
  | some b =>
    rw [memRead_written (hread.trans hi), memRead_written hi]; rfl
  | none =>
    have hfault := recordFault_withByte .unwrittenRead j v { s with draws := s.draws + 1 }
    rw [memRead_unwritten (hread.trans hi), memRead_unwritten hi]
    exact congrArg (fun t => (Config.freeByte s.draws, noteAccess who .read i (Config.freeByte s.draws) t)) hfault

/-- `DMAXFER` does not see a byte behind the source offset (R70(e)). -/
theorem dmaxfer_withByte {s : State} {j : Nat} (v : Byte) (hin : s.dSrc.toNat < s.cfg.bufLen)
    (hj : j < s.dSrc.toNat) :
    dmaxfer (withByte j v s) = .next (withByte j v
      (moveByte (memRead .dma s.dSrc.toNat s).1 (memRead .dma s.dSrc.toNat s).2)) := by
  have hread := memRead_withByte_of_ne .dma v s hj.ne'
  calc dmaxfer (withByte j v s)
      = .next (moveByte (memRead .dma s.dSrc.toNat (withByte j v s)).1
          (memRead .dma s.dSrc.toNat (withByte j v s)).2) := dmaxfer_inside hin
    _ = _ := by rw [hread]; rfl

/-- A transfer in flight has its source offset inside the buffer (R45(d), R45(e)). -/
theorem StateInv.source_inside {s : State} (h : StateInv s) (harm : s.armed = true) :
    s.dSrc.toNat < s.cfg.bufLen := by
  obtain ⟨hconf, hpos, hle, hsrc⟩ := h.inFlight harm
  obtain ⟨-, hlen, -⟩ := h.configured hconf
  omega

/-- The source offset of a transfer in flight does not wrap (R169). -/
theorem StateInv.toNat_advanceSource {s : State} (h : StateInv s) (harm : s.armed = true) :
    (advanceSource s.dSrc).toNat = s.dSrc.toNat + 1 := by
  obtain ⟨-, hpos, hle, hsrc⟩ := h.inFlight harm
  unfold advanceSource
  bv_omega

/-- A step of the timer or the engine answers, does not lower the source offset, and keeps two states that differ
in a byte behind it equal but for that byte (R70(e)). -/
theorem step_withByte {s : State} {j : Nat} {a : Agent} {as : List Agent} (v : Byte) (h : StateInv s)
    (hj : j < s.dSrc.toNat) (hs : s.sched = a :: as) (ha : a = .timer ∨ a = .dma) :
    ∃ t, step s = .next t ∧ step (withByte j v s) = .next (withByte j v t)
      ∧ t.sched = as ∧ s.dSrc.toNat ≤ t.dSrc.toNat := by
  have hs' : (withByte j v s).sched = a :: as := hs
  rw [step_cons hs, step_cons hs']
  obtain rfl | rfl := ha
  case inl =>
    by_cases he : tickEnabled s = true
    · exact ⟨_, if_pos he, if_pos he, rfl, le_rfl⟩
    · exact ⟨_, if_neg he, if_neg he, rfl, le_rfl⟩
  case inr =>
    by_cases he : dmaEnabled s = true
    · have harm : s.armed = true := (Bool.and_eq_true_iff.1 he).1
      have hin : s.dSrc.toNat < s.cfg.bufLen := h.source_inside harm
      refine ⟨_, (if_pos he).trans (dmaxfer_inside (s := { s with sched := as }) hin),
        (if_pos he).trans (dmaxfer_withByte (s := { s with sched := as }) v hin hj), by simp, ?_⟩
      simp [h.toNat_advanceSource harm]
    · exact ⟨_, if_neg he, if_neg he, rfl, le_rfl⟩

/-- A run of timer and engine steps keeps two states that differ in a byte behind the source offset equal but for
that byte (R70(e)). -/
theorem runSteps_withByte {j : Nat} {v : Byte} {rest : List Agent} (l : List Agent) {s : State} (h : StateInv s)
    (hj : j < s.dSrc.toNat) (hs : s.sched = l ++ rest) (hl : ∀ a ∈ l, a = .timer ∨ a = .dma) :
    ∃ t, runSteps l.length s = .next t ∧ runSteps l.length (withByte j v s) = .next (withByte j v t) := by
  induction l generalizing s with
  | nil => exact ⟨s, rfl, rfl⟩
  | cons a l ih =>
    obtain ⟨ha, hl'⟩ := List.forall_mem_cons.1 hl
    obtain ⟨u, hstep, hstep', hsched, hsrc⟩ := step_withByte v h hj hs ha
    obtain ⟨t, hrun, hrun'⟩ := ih (everyStepKeepsTheInvariant s u h hstep) (hj.trans_le hsrc) hsched hl'
    exact ⟨t, by simpa only [List.length_cons, runSteps, hstep] using hrun,
      by simpa only [List.length_cons, runSteps, hstep'] using hrun'⟩

/-- Settles O45: `D_SRC` only grows, so no `DMAXFER` of the run reads the byte. -/
theorem byteBehindTheOffsetIsNotStreamed : Obligations.ByteBehindTheOffsetIsNotStreamed :=
  fun _ _ _ l _ h hj hs hl => runSteps_withByte l h hj hs hl

end Sys2Proof.Machine
end

section
/-! The command encoding (spec/30_encoding.md R85 to R89): a word decodes to a command exactly when the command is
well-formed and the word is its word, and exactly when it matches the command's row of the opcode map. -/

namespace Sys2Proof

/-! #### The formats on the words the encoder writes -/

@[simp] theorem decodeZ_commandWord (op : Byte) (i : Instr) : decodeZ (commandWord op 0#16 0#8) i = .ok i := by
  simp [decodeZ]

@[simp] theorem decodeB1_commandWord (op : Byte) (bit : Bool) (mk : Bool → Instr) :
    decodeB1 (commandWord op 0#16 ((BitVec.ofBool bit).setWidth 8)) mk = .ok (mk bit) := by
  cases bit <;> simp [decodeB1]

theorem decodeB_commandWord (op : Byte) {n : Nat} (h : n < 256) (mk : Nat → Instr) :
    decodeB (commandWord op 0#16 (BitVec.ofNat 8 n)) mk = .ok (mk n) := by
  simp [decodeB, Nat.mod_eq_of_lt h]

theorem decodeA_commandWord (op : Byte) {n : Nat} (h : n < 65536) (mk : Nat → Instr) :
    decodeA (commandWord op (BitVec.ofNat 16 n) 0#8) mk = .ok (mk n) := by
  simp [decodeA, Nat.mod_eq_of_lt h]

theorem decodeAB_commandWord (op : Byte) {n : Nat} (h : n < 65536) (b : Byte) (mk : Nat → Byte → Instr) :
    decodeAB (commandWord op (BitVec.ofNat 16 n) b) mk = .ok (mk n b) := by
  simp [decodeAB, Nat.mod_eq_of_lt h]

/-- Settles O2: the opcode selects the instruction's format, and each format reads back the fields it wrote. -/
theorem decodeOfEncode : Obligations.DecodeOfEncode := by
  intro i h
  cases i with
  | sysinit => simp [encode, decode]
  | encode bit => simp [encode, decode]
  | bufinit => simp [encode, decode]
  | bufwr idx val => simp [encode, decode, decodeAB_commandWord _ (of_decide_eq_true h)]
  | bufrd idx => simp [encode, decode, decodeA_commandWord _ (of_decide_eq_true h)]
  | tcfg => simp [encode, decode]
  | tstart => simp [encode, decode]
  | dcfg => simp [encode, decode]
  | darm => simp [encode, decode]
  | rdcr n => simp [encode, decode, decodeB_commandWord _ (of_decide_eq_true h)]

/-! #### Which words are an instruction's -/

/-- A word is put together from three fields exactly when they are its fields (R86). -/
theorem commandWord_eq {w : Word} {op : Byte} {a : Half} {b : Byte} :
    commandWord op a b = w ↔ opField w = op ∧ aField w = a ∧ bField w = b := by
  rw [← commandWord_fields w]
  simp [commandWord_inj, eq_comm]

/-- A byte whose bits 7:1 are zero is its bit 0 (R86, format B1). -/
theorem ofBool_of_upper_zero {b : Byte} (h : b.extractLsb' 1 7 = 0) :
    b = (BitVec.ofBool (b.getLsbD 0)).setWidth 8 := by
  revert b; decide

/-- `w` is the word of the well-formed instruction `i`. -/
def IsWordOf (w : Word) (i : Instr) : Prop := i.wellFormed = true ∧ encode i = w

theorem isWordOf_encode {w : Word} (hop : opField w = 0x10) (ha : aField w = 0)
    (hb : (bField w).extractLsb' 1 7 = 0) : IsWordOf w (.encode ((bField w).getLsbD 0)) :=
  ⟨rfl, commandWord_eq.2 ⟨hop, ha, ofBool_of_upper_zero hb⟩⟩

theorem isWordOf_bufwr {w : Word} (hop : opField w = 0x12) : IsWordOf w (.bufwr (aField w).toNat (bField w)) :=
  ⟨decide_eq_true (aField w).isLt, commandWord_eq.2 ⟨hop, by simp, rfl⟩⟩

theorem isWordOf_bufrd {w : Word} (hop : opField w = 0x13) (hb : bField w = 0) :
    IsWordOf w (.bufrd (aField w).toNat) :=
  ⟨decide_eq_true (aField w).isLt, commandWord_eq.2 ⟨hop, by simp, hb⟩⟩

theorem isWordOf_rdcr {w : Word} (hop : opField w = 0x40) (ha : aField w = 0) :
    IsWordOf w (.rdcr (bField w).toNat) :=
  ⟨decide_eq_true (bField w).isLt, commandWord_eq.2 ⟨hop, ha, by simp⟩⟩

/-! #### What the decoder accepts -/

/-- A format's check that accepts has passed. -/
theorem of_ite_ok {ε α : Type} {p : Prop} [Decidable p] {e : ε} {x y : α}
    (h : (if p then Except.ok x else Except.error e) = Except.ok y) : p ∧ x = y := by
  by_cases hp : p
  · rw [if_pos hp] at h; exact ⟨hp, Except.ok.inj h⟩
  · rw [if_neg hp] at h; cases h

/-- A word that format Z accepts has no operand: it is the opcode's one word. -/
theorem isWordOf_of_decodeZ {w : Word} {op : Byte} {i j : Instr} (hop : opField w = op)
    (hi : IsWordOf (commandWord op 0 0) i) (h : decodeZ w i = .ok j) : IsWordOf w j := by
  obtain ⟨⟨ha, hb⟩, rfl⟩ := of_ite_ok h
  exact commandWord_eq.2 ⟨hop, ha, hb⟩ ▸ hi

/-- Settles O3: along the opcodes `decode` tests. -/
theorem encodeOfDecode : Obligations.EncodeOfDecode := by
  intro w i h
  unfold decode at h
  split_ifs at h with hsysinit hencode hbufinit hbufwr hbufrd htcfg htstart hdcfg hdarm hrdcr
  · exact isWordOf_of_decodeZ hsysinit ⟨rfl, rfl⟩ h
  · obtain ⟨⟨ha, hb⟩, rfl⟩ := of_ite_ok h
    exact isWordOf_encode hencode ha hb
  · exact isWordOf_of_decodeZ hbufinit ⟨rfl, rfl⟩ h
  · cases h
    exact isWordOf_bufwr hbufwr
  · obtain ⟨hb, rfl⟩ := of_ite_ok h
    exact isWordOf_bufrd hbufrd hb
  · exact isWordOf_of_decodeZ htcfg ⟨rfl, rfl⟩ h
  · exact isWordOf_of_decodeZ htstart ⟨rfl, rfl⟩ h
  · exact isWordOf_of_decodeZ hdcfg ⟨rfl, rfl⟩ h
  · exact isWordOf_of_decodeZ hdarm ⟨rfl, rfl⟩ h
  · obtain ⟨ha, rfl⟩ := of_ite_ok h
    exact isWordOf_rdcr hrdcr ha

/-- A word decodes to an instruction exactly when it is the word of that well-formed instruction. -/
theorem decode_eq_ok {w : Word} {i : Instr} : decode w = .ok i ↔ IsWordOf w i :=
  ⟨encodeOfDecode w i, fun ⟨hwf, hw⟩ => hw ▸ decodeOfEncode i hwf⟩

/-- Settles O1: each word is evaluated. -/
theorem specWordsDecode : Obligations.SpecWordsDecode := by
  unfold Obligations.SpecWordsDecode
  decide

/-! #### The opcode map -/

/-- Every instruction's word matches its row, and the row is in the map (R88). -/
theorem matches_own_row (i : Instr) : Laws.RowMatch.Statement i := by
  cases i with
  | sysinit => exact Laws.RowMatch.sysinit
  | encode bit => exact Laws.RowMatch.encode bit
  | bufinit => exact Laws.RowMatch.bufinit
  | bufwr idx val => exact Laws.RowMatch.bufwr idx val
  | bufrd idx => exact Laws.RowMatch.bufrd idx
  | tcfg => exact Laws.RowMatch.tcfg
  | tstart => exact Laws.RowMatch.tstart
  | dcfg => exact Laws.RowMatch.dcfg
  | darm => exact Laws.RowMatch.darm
  | rdcr n => exact Laws.RowMatch.rdcr n

/-- A legal word matches the row of its command, a row of the map (R88). -/
theorem matches_of_decode {w : Word} {i : Instr} (h : decode w = .ok i) :
    (opcodeRow i).matchesWord w = true ∧ opcodeRow i ∈ opcodeMap := by
  obtain ⟨-, rfl⟩ := decode_eq_ok.1 h
  exact matches_own_row i

/-- A match, field by field (R86, R88). -/
theorem matchesWord_iff (op mop : Byte) (a ma : Half) (b mb : Byte) {w : Word} :
    (OpcodeRow.mk (commandWord op a b) (commandWord mop ma mb)).matchesWord w = true
      ↔ opField w &&& mop = op ∧ aField w &&& ma = a ∧ bField w &&& mb = b := by
  conv_lhs => rw [← commandWord_fields w]
  simp [OpcodeRow.matchesWord, commandWord_and, commandWord_inj]

/-- Every row of the map is an instruction's. -/
theorem exists_of_mem_opcodeMap {row : OpcodeRow} (h : row ∈ opcodeMap) : ∃ i, opcodeRow i = row := by
  have hmap : opcodeMap = [.sysinit, .encode false, .bufinit, .bufwr 0 0, .bufrd 0, .tcfg, .tstart, .dcfg, .darm,
    .rdcr 0].map opcodeRow := rfl
  rw [hmap] at h
  obtain ⟨i, -, hi⟩ := List.mem_map.1 h
  exact ⟨i, hi⟩

/-- The bits 7:1 of a byte are the ones the mask of ENCODE's row keeps (R88). -/
theorem upper_zero_of_and {b : Byte} (h : b &&& 0xFE = 0) : b.extractLsb' 1 7 = 0 := by
  revert b; decide

/-- A word that a row matches under the full mask is the row's pattern (R88). -/
theorem eq_of_matches_full {pattern w : Word} (h : (OpcodeRow.mk pattern 0xFFFFFFFF).matchesWord w = true) :
    pattern = w := by
  have hand : w &&& BitVec.allOnes 32 = pattern := beq_iff_eq.1 h
  rw [← hand, BitVec.and_allOnes]

/-- A word that matches an instruction's row is the word of an instruction of that row (R88). -/
theorem exists_isWordOf_of_matches {w : Word} {i : Instr} (h : (opcodeRow i).matchesWord w = true) :
    ∃ j, IsWordOf w j ∧ opcodeRow j = opcodeRow i := by
  cases i with
  | sysinit => exact ⟨.sysinit, ⟨rfl, eq_of_matches_full h⟩, rfl⟩
  | encode bit =>
    obtain ⟨hop, ha, hb⟩ := (matchesWord_iff 0x10 (.allOnes 8) 0 (.allOnes 16) 0 0xFE).1 h
    rw [BitVec.and_allOnes] at hop ha
    exact ⟨_, isWordOf_encode hop ha (upper_zero_of_and hb), rfl⟩
  | bufinit => exact ⟨.bufinit, ⟨rfl, eq_of_matches_full h⟩, rfl⟩
  | bufwr idx val =>
    obtain ⟨hop, -, -⟩ := (matchesWord_iff 0x12 (.allOnes 8) 0 0 0 0).1 h
    rw [BitVec.and_allOnes] at hop
    exact ⟨_, isWordOf_bufwr hop, rfl⟩
  | bufrd idx =>
    obtain ⟨hop, -, hb⟩ := (matchesWord_iff 0x13 (.allOnes 8) 0 0 0 (.allOnes 8)).1 h
    rw [BitVec.and_allOnes] at hop hb
    exact ⟨_, isWordOf_bufrd hop hb, rfl⟩
  | tcfg => exact ⟨.tcfg, ⟨rfl, eq_of_matches_full h⟩, rfl⟩
  | tstart => exact ⟨.tstart, ⟨rfl, eq_of_matches_full h⟩, rfl⟩
  | dcfg => exact ⟨.dcfg, ⟨rfl, eq_of_matches_full h⟩, rfl⟩
  | darm => exact ⟨.darm, ⟨rfl, eq_of_matches_full h⟩, rfl⟩
  | rdcr n =>
    obtain ⟨hop, ha, -⟩ := (matchesWord_iff 0x40 (.allOnes 8) 0 (.allOnes 16) 0 0).1 h
    rw [BitVec.and_allOnes] at hop ha
    exact ⟨_, isWordOf_rdcr hop ha, rfl⟩

/-- Settles O4: a match determines the word up to its operands, and a legal word matches its command's row. -/
theorem wordIsCommandExactlyWhenItMatchesItsRow : Obligations.WordIsCommandExactlyWhenItMatchesItsRow := by
  intro w row hrow
  constructor
  · intro hmatch
    obtain ⟨i, rfl⟩ := exists_of_mem_opcodeMap hrow
    obtain ⟨j, hword, hsame⟩ := exists_isWordOf_of_matches hmatch
    exact ⟨j, decode_eq_ok.2 hword, hsame⟩
  · rintro ⟨i, hdec, rfl⟩
    exact (matches_of_decode hdec).1

/-- A word that matches no row is illegal (R89). -/
theorem decode_error_of_no_match {w : Word} (h : ∀ row ∈ opcodeMap, row.matchesWord w = false) :
    ∃ e, decode w = .error e := by
  cases hdec : decode w with
  | error e => exact ⟨e, rfl⟩
  | ok i =>
    obtain ⟨hmatch, hmem⟩ := matches_of_decode hdec
    exact absurd hmatch (by simp [h _ hmem])

end Sys2Proof

namespace Sys2Proof.Machine

/-- An illegal word raises fault 1 (R89). -/
theorem present_error {w : Word} {e : DecodeRefusal} (s : State) (h : decode w = .error e) :
    present w s = raiseFault .illegalCommand s := by
  simp only [present, h]

/-- Settles O5: the word decodes to no command, and a fault writes only `FAULT` (`raiseFault_faultedWith`). -/
theorem wordMatchingNoRowRaisesFaultOne : Obligations.WordMatchingNoRowRaisesFaultOne := by
  intro s w ws as hs hp hno
  obtain ⟨e, hdec⟩ := decode_error_of_no_match hno
  rw [step_host_cons hs hp, present_error _ hdec]
  exact raiseFault_faultedWith .illegalCommand _

end Sys2Proof.Machine
end

section
/-! The assembler (spec/30_encoding.md R91, R92): every command of an accepted line fits its fields. -/

namespace Sys2Proof.Machine

/-! #### The pseudo-instructions -/

/-- The data writes of the LEDs from number `n` on are BUFWR commands at the data indices of those LEDs (R125). -/
theorem mem_frameWrites {c : Config} {n : Nat} {ps : List Led} {j : Instr} (h : j ∈ frameWrites c n ps) :
    ∃ i ch k val, i < n + ps.length ∧ ch < 3 ∧ k < 8 ∧ j = .bufwr (dataIndex i ch k) val := by
  induction ps generalizing n with
  | nil => cases h
  | cons p ps ih =>
    rw [List.length_cons]
    obtain hled | hrest := List.mem_append.1 h
    · obtain ⟨ch, hch, hj⟩ := List.mem_flatMap.1 hled
      obtain ⟨k, hk, rfl⟩ := List.mem_map.1 hj
      exact ⟨n, ch, k, _, by omega, List.mem_range.1 hch, List.mem_range.1 hk, rfl⟩
    · obtain ⟨i, ch, k, val, hi, hch, hk, rfl⟩ := ih hrest
      exact ⟨i, ch, k, val, by omega, hch, hk, rfl⟩

/-- COMPOSE is BUFWR commands inside the buffer (R125). -/
theorem mem_compose {c : Config} {pattern : List Led} {is : List Instr} {j : Instr}
    (hlen : c.bufLen = 24 * c.ledCount + 2) (h : compose c pattern = some is) (hj : j ∈ is) :
    ∃ idx val, idx < c.bufLen ∧ j = .bufwr idx val := by
  unfold compose at h
  split at h
  · rename_i hfits
    obtain rfl := Option.some.inj h
    have hcount : pattern.length = c.ledCount := of_decide_eq_true hfits
    obtain hdata | hlast := List.mem_append.1 hj
    · obtain ⟨i, ch, k, val, hi, hch, hk, rfl⟩ := mem_frameWrites hdata
      exact ⟨_, val, by unfold dataIndex; omega, rfl⟩
    · obtain rfl := List.mem_singleton.1 hlast
      exact ⟨_, _, by unfold trailingIndex; omega, rfl⟩
  · cases h

/-- Every command of the sequence has operands that fit their fields. -/
def AllWellFormed (is : List Instr) : Prop := ∀ i ∈ is, i.wellFormed = true

theorem allWellFormed_singleton {i : Instr} (h : i.wellFormed = true) : AllWellFormed [i] := by
  simpa [AllWellFormed] using h

theorem allWellFormed_ledinit : AllWellFormed ledinit := by
  unfold AllWellFormed; decide

section
variable {c : Config} {pattern : List Led} {is : List Instr}
  (hlen : c.bufLen = 24 * c.ledCount + 2) (hcount : c.ledCount ≤ 2730)
include hlen hcount

/-- A legal buffer is shorter than the 16-bit index field reaches (R5, R86). -/
theorem allWellFormed_of_compose (h : compose c pattern = some is) : AllWellFormed is := by
  intro j hj
  obtain ⟨idx, val, hidx, rfl⟩ := mem_compose hlen h hj
  exact decide_eq_true (by omega)

theorem allWellFormed_of_refresh (h : refresh c pattern = some is) : AllWellFormed is := by
  obtain ⟨writes, hcomp, rfl⟩ := Option.map_eq_some_iff.1 h
  have hwrites := allWellFormed_of_compose hlen hcount hcomp
  exact List.forall_mem_append.2 ⟨hwrites, allWellFormed_singleton rfl⟩

theorem allWellFormed_of_service {wanted : Bool} (h : service wanted c pattern = some is) : AllWellFormed is := by
  cases wanted with
  | false => cases h; exact List.forall_mem_nil _
  | true => exact allWellFormed_of_refresh hlen hcount h

end

/-! #### The lines -/

/-- What an accepted line stands for: nothing, one command whose operands fit, or one of the four
pseudo-instructions (R91, R92). -/
inductive StandsFor (c : Config) (wanted : Bool) : List Instr → Prop
  | nothing : StandsFor c wanted []
  | command {i : Instr} (fits : i.wellFormed = true) : StandsFor c wanted [i]
  | ledinit : StandsFor c wanted ledinit
  | compose {pattern : List Led} {is : List Instr} (h : compose c pattern = some is) : StandsFor c wanted is
  | refresh {pattern : List Led} {is : List Instr} (h : refresh c pattern = some is) : StandsFor c wanted is
  | service {pattern : List Led} {is : List Instr} (h : service wanted c pattern = some is) : StandsFor c wanted is

section
variable {c : Config} {wanted : Bool} {is js : List Instr}

/-- A line without operands (R91). -/
theorem standsFor_of_bare {ops : List Token} (hjs : StandsFor c wanted js)
    (h : (if ops = [] then some js else none) = some is) : StandsFor c wanted is := by
  split_ifs at h
  exact Option.some.inj h ▸ hjs

/-- A command is accepted where its operands fit (R91). -/
theorem standsFor_of_fitting {i : Instr} (h : fitting i = some is) : StandsFor c wanted is := by
  unfold fitting at h
  split_ifs at h with hfits
  exact Option.some.inj h ▸ .command hfits

/-- A bit operand is 0 or 1 (R91). -/
theorem standsFor_of_encodeLine {n : Nat} (h : encodeLine n = some is) : StandsFor c wanted is := by
  unfold encodeLine at h
  split_ifs at h
  · exact Option.some.inj h ▸ .command rfl
  · exact Option.some.inj h ▸ .command rfl

/-- One test of the line's mnemonic: both branches are followed. -/
theorem of_ite_some {p : Prop} [Decidable p] {x y : Option (List Instr)} {q : Prop} (hx : x = some is → q)
    (hy : y = some is → q) (h : (if p then x else y) = some is) : q := by
  split_ifs at h
  · exact hx h
  · exact hy h

/-- What a line that begins with a mnemonic stands for, along the mnemonics `commandLine` tests. -/
theorem standsFor_of_mnemonic {m : List Char} {ops : List Token}
    (h : commandLine c wanted (.name m :: ops) = some is) : StandsFor c wanted is := by
  unfold commandLine at h
  revert h
  refine of_ite_some (standsFor_of_bare (.command rfl)) <| of_ite_some (standsFor_of_bare (.command rfl)) <|
    of_ite_some (standsFor_of_bare (.command rfl)) <| of_ite_some (standsFor_of_bare (.command rfl)) <|
    of_ite_some (standsFor_of_bare (.command rfl)) <| of_ite_some (standsFor_of_bare (.command rfl)) <|
    of_ite_some (standsFor_of_bare .ledinit) <| of_ite_some ?encode <| of_ite_some ?bufwr <| of_ite_some ?bufrd <|
    of_ite_some ?rdcr <| of_ite_some ?compose <| of_ite_some ?refresh <| of_ite_some ?service nofun
  case encode =>
    split
    · exact standsFor_of_encodeLine
    · nofun
  case bufwr =>
    split
    · split
      · exact standsFor_of_fitting
      · nofun
    · nofun
  case bufrd =>
    split
    · exact standsFor_of_fitting
    · nofun
  case rdcr =>
    split
    · exact standsFor_of_fitting
    · nofun
  case compose =>
    split
    · exact .compose
    · nofun
  case refresh =>
    split
    · exact .refresh
    · nofun
  case service =>
    split
    · exact .service
    · nofun

/-- What an accepted line stands for (R91, R92). -/
theorem standsFor_of_assembleLine {line : List Char} (h : assembleLine c wanted line = some is) :
    StandsFor c wanted is := by
  unfold assembleLine at h
  split at h
  · rename_i ts _
    match ts, h with
    | [], h => exact Option.some.inj h ▸ .nothing
    | .name m :: ops, h => exact standsFor_of_mnemonic h
  · cases h

end

/-- Settles O52: by what an accepted line stands for, and O2. -/
theorem assembledCommandsDecode : Obligations.AssembledCommandsDecode := by
  intro c wanted line is hlen hcount h
  have hwf : AllWellFormed is := by
    cases standsFor_of_assembleLine h with
    | nothing => exact List.forall_mem_nil _
    | command fits => exact allWellFormed_singleton fits
    | ledinit => exact allWellFormed_ledinit
    | compose hp => exact allWellFormed_of_compose hlen hcount hp
    | refresh hp => exact allWellFormed_of_refresh hlen hcount hp
    | service hp => exact allWellFormed_of_service hlen hcount hp
  exact fun i hi => ⟨hwf i hi, decodeOfEncode i (hwf i hi)⟩

end Sys2Proof.Machine
end

section
/-! The Duration Encoder (spec/40_duration_encoder.md R110 to R112): ENCODE answers the code of its bit and writes
nothing, and a valid configuration orders the two codes. -/

namespace Sys2Proof.Machine

/-! #### The command and its words -/

@[simp] theorem durationCode_true (c : Config) : durationCode c true = c.high := rfl

@[simp] theorem durationCode_false (c : Config) : durationCode c false = c.low := rfl

/-- A response changes nothing else. -/
theorem respond_frame (b : Byte) (s : State) :
    ∃ t, respond b s = .next t ∧ t.resp = some b ∧ t.fault = s.fault ∧ t.sysReady = s.sysReady
      ∧ sameTimer s t ∧ sameEngine s t ∧ sameBuffer s t ∧ sameRecord s t ∧ sameOutside s t := by
  refine ⟨_, rfl, ?_⟩
  simp [sameTimer, sameEngine, sameBuffer, sameRecord, sameOutside]

/-- ENCODE is the response with the code of its bit (R111). -/
theorem exec_encode (bit : Bool) (s : State) : exec (.encode bit) s = respond (durationCode s.cfg bit) s := rfl

/-- The word of ENCODE has no bit set between its opcode and its operand (R86, R88). -/
theorem encode_encode_unused (bit : Bool) : (encode (.encode bit)).extractLsb' 1 23 = 0 := by
  revert bit; decide

/-- ENCODE is the only command of its opcode (R88). -/
theorem eq_encode_of_opField {i : Instr} (h : opField (encode i) = 0x10) : ∃ bit, i = .encode bit := by
  cases i with
  | encode bit => exact ⟨bit, rfl⟩
  | _ => simp [encode] at h

/-- A word of ENCODE's opcode with an unused bit set is illegal (R86, R89). -/
theorem decode_error_of_unused {w : Word} (hop : opField w = 0x10) (hunused : w.extractLsb' 1 23 ≠ 0) :
    ∃ e, decode w = .error e := by
  cases hdec : decode w with
  | error e => exact ⟨e, rfl⟩
  | ok i =>
    obtain ⟨-, rfl⟩ := decode_eq_ok.1 hdec
    obtain ⟨bit, rfl⟩ := eq_encode_of_opField hop
    exact absurd (encode_encode_unused bit) hunused

/-- Settles O10: a response writes nothing else, and the only words of the opcode are the two that `encode` gives. -/
theorem encodeAnswersTheDurationCode : Obligations.EncodeAnswersTheDurationCode :=
  ⟨decodeOfEncode (.encode false) rfl, decodeOfEncode (.encode true) rfl,
    fun bit s => exec_encode bit s ▸ respond_frame (durationCode s.cfg bit) s,
    fun _ => decode_error_of_unused, fun _ => ⟨rfl, rfl⟩⟩

/-! #### The two codes -/

/-- The codes are LOW and HIGH and no other byte (R110). -/
theorem exists_durationCode_eq {c : Config} {v : Byte} : (∃ b, durationCode c b = v) ↔ v = c.low ∨ v = c.high := by
  simp [Bool.exists_bool, eq_comm]

/-- Settles O11: by the clauses of `ConfigValid` (R6); `1 ≤ LOW < HIGH < PERIOD` leaves no period below 3. -/
theorem validCodesAreOrderedPositiveAndBelowThePeriod :
    Obligations.ValidCodesAreOrderedPositiveAndBelowThePeriod := by
  constructor
  · intro c hvalid
    obtain ⟨hhigh, hlow, -, hord, hpos, -⟩ := (configValid_iff c).1 hvalid
    have hpos' : 1 ≤ c.high.toNat := hpos.trans hord.le
    have hperiod : 3 ≤ c.period := by omega
    exact ⟨hord, Bool.forall_bool.2 ⟨hlow, hhigh⟩, Bool.forall_bool.2 ⟨hpos, hpos'⟩,
      fun _ => exists_durationCode_eq, hperiod⟩
  · intro n hmin hmax
    rw [configValid_iff]
    simp [hmin, hmax]

end Sys2Proof.Machine
end

section
/-! The Frame Composer's buffer commands (spec/41_frame_composer.md R122 to R124): BUFINIT and BUFWR write one entry
and nothing else, BUFRD answers one. -/

namespace Sys2Proof

/-! #### The command words, bit by bit -/

/-- The fields of a command word at their bit positions (R86). -/
theorem commandWord_eq_or (op : Byte) (a : Half) (b : Byte) :
    commandWord op a b = (op.setWidth 32 <<< 24) ||| (a.setWidth 32 <<< 8) ||| b.setWidth 32 := by
  unfold commandWord; ext i hi; simp; grind

/-- An index that fits field `a` is the same number in 16 bits as in the 32 of a word (R86, R91). -/
theorem setWidth_ofNat_index {idx : Nat} (h : idx < 65536) :
    (BitVec.ofNat 16 idx).setWidth 32 = BitVec.ofNat 32 idx := by
  apply BitVec.eq_of_toNat_eq
  simp [Nat.mod_eq_of_lt h]

theorem encode_bufwr {idx : Nat} (h : idx < 65536) (val : Byte) :
    encode (.bufwr idx val) = 0x12000000#32 ||| (BitVec.ofNat 32 idx <<< 8) ||| val.setWidth 32 := by
  rw [← setWidth_ofNat_index h]
  exact commandWord_eq_or _ _ _

theorem encode_bufrd {idx : Nat} (h : idx < 65536) :
    encode (.bufrd idx) = 0x13000000#32 ||| (BitVec.ofNat 32 idx <<< 8) := by
  rw [← setWidth_ofNat_index h, ← BitVec.or_zero (x := _ ||| _)]
  exact commandWord_eq_or _ _ _

end Sys2Proof

namespace Sys2Proof.Machine

/-! #### Writing an entry -/

/-- No fault was recorded and no register, flag or anything outside the block changed: only the buffer, its record
and the response may differ. -/
def SameApartFromBuffer (s t : State) : Prop :=
  t.fault = s.fault ∧ t.sysReady = s.sysReady ∧ sameTimer s t ∧ sameEngine s t ∧ sameOutside s t

theorem SameApartFromBuffer.refl (s : State) : SameApartFromBuffer s s := by
  simp [SameApartFromBuffer, sameTimer, sameEngine, sameOutside]

theorem SameApartFromBuffer.trans {s t u : State} (hst : SameApartFromBuffer s t) (htu : SameApartFromBuffer t u) :
    SameApartFromBuffer s u := by
  simp_all [SameApartFromBuffer, sameTimer, sameEngine, sameOutside]

theorem SameApartFromBuffer.cfg_eq {s t : State} (h : SameApartFromBuffer s t) : t.cfg = s.cfg := by
  obtain ⟨-, -, -, -, hcfg, -⟩ := h
  exact hcfg

/-- The host's write of `v` to entry `i`, with its whole frame: the other entries, the record, the response, and
everything apart from the buffer. -/
def HostWrote (i : Nat) (v : Byte) (s t : State) : Prop :=
  t.mem.read i = some v ∧ sameBufferBut i s t
    ∧ t.history = ⟨.host, .write, i, v⟩ :: s.history ∧ t.draws = s.draws
    ∧ t.resp = none ∧ SameApartFromBuffer s t

/-- A command that ends with the write of one entry does nothing else (R75). -/
theorem finish_memWrite (i : Nat) (v : Byte) (s : State) :
    ∃ t, finish (memWrite .host i v s) = .next t ∧ HostWrote i v s t := by
  refine ⟨_, rfl, Memory.read_write_self _ _ _, fun j hj => Memory.read_write_of_ne _ v hj, ?_⟩
  simp [SameApartFromBuffer, sameTimer, sameEngine, sameOutside]

theorem exec_bufinit {s : State} (h : 0 < s.cfg.bufLen) : ∃ t, exec .bufinit s = .next t ∧ HostWrote 0 255 s t := by
  have hexec : exec .bufinit s = finish (memWrite .host 0 255 s) := if_pos (decide_eq_true h)
  rw [hexec]
  exact finish_memWrite 0 255 s

theorem exec_bufwr {idx : Nat} {s : State} (val : Byte) (h : idx < s.cfg.bufLen) :
    ∃ t, exec (.bufwr idx val) s = .next t ∧ HostWrote idx val s t := by
  have hexec : exec (.bufwr idx val) s = finish (memWrite .host idx val s) := if_pos (decide_eq_true h)
  rw [hexec]
  exact finish_memWrite idx val s

theorem exec_bufwr_outside {idx : Nat} {s : State} (val : Byte) (h : s.cfg.bufLen ≤ idx) :
    exec (.bufwr idx val) s = raiseFault .bufIndex s :=
  if_neg (by simpa [indexInBuffer] using h)

/-- Settles O12: BUFINIT is the write of 255 to entry 0. -/
theorem bufinitWritesTheLeadingSentinel : Obligations.BufinitWritesTheLeadingSentinel :=
  ⟨decodeOfEncode .bufinit rfl, fun _ => exec_bufinit⟩

/-- Settles O13: BUFWR is the write of its operand inside the buffer, and a fault outside. -/
theorem bufwrStoresTheByteOrFaultsSeven : Obligations.BufwrStoresTheByteOrFaultsSeven := by
  refine ⟨fun idx val hidx => ?_, fun idx val s => ⟨exec_bufwr val, fun hout => ?_⟩⟩
  · rw [← encode_bufwr hidx]
    exact decodeOfEncode (.bufwr idx val) (decide_eq_true hidx)
  · rw [exec_bufwr_outside val hout]
    exact raiseFault_faultedWith .bufIndex s

/-! #### Reading an entry -/

theorem exec_bufrd {idx : Nat} {s : State} (h : idx < s.cfg.bufLen) :
    exec (.bufrd idx) s = respond (memRead .host idx s).1 (memRead .host idx s).2 :=
  if_pos (decide_eq_true h)

theorem exec_bufrd_outside {idx : Nat} {s : State} (h : s.cfg.bufLen ≤ idx) :
    exec (.bufrd idx) s = raiseFault .bufIndex s :=
  if_neg (by simpa [indexInBuffer] using h)

/-- Settles O14: the response is the byte that `MemRead` gives and records (R75). -/
theorem bufrdAnswersTheEntry : Obligations.BufrdAnswersTheEntry := by
  refine ⟨fun idx hidx => ?_, fun idx s => ⟨fun hin => ?_, fun hout => ?_⟩⟩
  · rw [← encode_bufrd hidx]
    exact decodeOfEncode (.bufrd idx) (decide_eq_true hidx)
  · refine ⟨_, (memRead .host idx s).1, exec_bufrd hin, rfl, fun b hb => ?_, fun hnone => ?_, ?_⟩
    · simp [memRead_written hb]
    · simp [memRead_fault, hnone]
    · simp [sameBuffer, sameTimer, sameEngine, sameOutside]
  · rw [exec_bufrd_outside hout]
    exact raiseFault_faultedWith .bufIndex s

end Sys2Proof.Machine
end

section
/-! COMPOSE (spec/41_frame_composer.md R120, R121, R125 to R129): its expansion is a run of writes at ascending
indices, whose values are the codes of the pattern's bits, and their execution lays out the buffer. -/

namespace Sys2Proof.Machine

/-! #### The data index -/

/-- Settles O46: LED, channel and bit are the digits of `idx - 1` in the mixed base 3, 8 (R121). -/
theorem dataIndexIsABijection : Obligations.DataIndexIsABijection := by
  unfold Obligations.DataIndexIsABijection dataIndex
  refine fun n => ⟨by omega, fun j hmin hmax => ?_, by omega⟩
  exact ⟨(j - 1) / 24, (j - 1) / 8 % 3, (j - 1) % 8, by omega, by omega, by omega, by omega⟩

/-! #### Writes at ascending indices -/

/-- The BUFWR commands that store `vals` at the indices from `n` on, in ascending order. -/
def writesFrom (n : Nat) (vals : List Byte) : List Instr :=
  List.zipWith (fun idx val => .bufwr idx val) (List.range' n vals.length) vals

@[simp] theorem writesFrom_nil (n : Nat) : writesFrom n [] = [] := rfl

@[simp] theorem writesFrom_cons (n : Nat) (v : Byte) (vals : List Byte) :
    writesFrom n (v :: vals) = .bufwr n v :: writesFrom (n + 1) vals := rfl

theorem writesFrom_append (n : Nat) (vals vals' : List Byte) :
    writesFrom n (vals ++ vals') = writesFrom n vals ++ writesFrom (n + vals.length) vals' := by
  induction vals generalizing n with
  | nil => rfl
  | cons v vals ih =>
    have hnext : n + 1 + vals.length = n + (vals.length + 1) := by omega
    simp [ih, hnext]

/-- Blocks of `m` writes each, one after the other, are one run of writes. -/
theorem flatMap_range_writesFrom (n m k : Nat) (f : Nat → List Byte) (hf : ∀ i, (f i).length = m) :
    ((List.range k).flatMap fun i => writesFrom (n + m * i) (f i)) = writesFrom n ((List.range k).flatMap f) := by
  induction k with
  | zero => rfl
  | succ k ih =>
    have hlen : ((List.range k).flatMap f).length = m * k := by simp [List.length_flatMap, hf, Nat.mul_comm]
    simp [List.range_succ, List.flatMap_append, ih, writesFrom_append, hlen]

/-- Writes inside the buffer, with no other step in between, store each value at its index and change nothing else. -/
theorem runCommands_writesFrom {n : Nat} {vals : List Byte} {s : State} (h : n + vals.length ≤ s.cfg.bufLen) :
    ∃ t, runCommands (writesFrom n vals) s = .next t ∧ SameApartFromBuffer s t
      ∧ (∀ j < n, t.mem.read j = s.mem.read j)
      ∧ ∀ j, t.mem.read (n + j) = vals[j]?.or (s.mem.read (n + j)) := by
  induction vals generalizing n s with
  | nil => exact ⟨s, rfl, .refl s, fun _ _ => rfl, fun _ => rfl⟩
  | cons v vals ih =>
    rw [List.length_cons] at h
    obtain ⟨u, hexec, hat, hbut, -, -, -, hsu⟩ := exec_bufwr (idx := n) v (show n < s.cfg.bufLen by omega)
    obtain ⟨t, hrun, hut, hbelow, hfrom⟩ := ih (n := n + 1) (s := u) (by rw [hsu.cfg_eq]; omega)
    refine ⟨t, ?_, hsu.trans hut, fun j hj => ?_, fun j => ?_⟩
    · simp only [writesFrom_cons, runCommands, hexec, hrun]
    · rw [hbelow j (by omega), hbut j (by omega)]
    · cases j with
      | zero => rw [Nat.add_zero, hbelow n (by omega), hat]; rfl
      | succ j =>
        have hread := hfrom j
        rw [hbut _ (by omega)] at hread
        rw [show n + (j + 1) = n + 1 + j by omega, hread, List.getElem?_cons_succ]

/-! #### The codes of a frame -/

/-- The codes of a channel byte, most significant bit first (R128). -/
def channelCodes (c : Config) (v : Byte) : List Byte := (List.range 8).map fun k => durationCode c (sentBit v k)

/-- The codes of one LED: green, red, blue (R128). -/
def ledCodes (c : Config) (p : Led) : List Byte := (List.range 3).flatMap fun ch => channelCodes c (p.channel ch)

/-- The codes of a frame, in chain order (R125). -/
def frameCodes (c : Config) (pattern : List Led) : List Byte := pattern.flatMap (ledCodes c)

@[simp] theorem length_channelCodes (c : Config) (v : Byte) : (channelCodes c v).length = 8 := by
  simp [channelCodes]

@[simp] theorem length_ledCodes (c : Config) (p : Led) : (ledCodes c p).length = 24 := by
  simp [ledCodes, List.length_flatMap]

@[simp] theorem length_frameCodes (c : Config) (pattern : List Led) :
    (frameCodes c pattern).length = 24 * pattern.length := by
  simp [frameCodes, List.length_flatMap, Nat.mul_comm]

/-- Where every block has length `m`, entry `r` of block `i` stands at `m * i + r`. -/
theorem getElem?_flatMap_block {α β : Type} {f : α → List β} {m : Nat} (hf : ∀ a, (f a).length = m) {l : List α}
    {i r : Nat} {a : α} (ha : l[i]? = some a) (hr : r < m) : (l.flatMap f)[m * i + r]? = (f a)[r]? := by
  induction l generalizing i with
  | nil => simp at ha
  | cons b l ih =>
    rw [List.flatMap_cons]
    cases i with
    | zero =>
      obtain rfl : b = a := by simpa using ha
      rw [Nat.mul_zero, Nat.zero_add, List.getElem?_append_left (by rwa [hf])]
    | succ i =>
      have hskip : m * (i + 1) + r - m = m * i + r := by rw [Nat.mul_succ]; omega
      rw [List.getElem?_append_right (by rw [hf, Nat.mul_succ]; omega), hf, hskip]
      exact ih (by simpa using ha)

/-- Bit position `k` of channel `ch` of LED `i` stands at `24*i + 8*ch + k` of the codes (R121). -/
theorem getElem?_frameCodes (c : Config) {pattern : List Led} {i ch k : Nat} {p : Led} (hp : pattern[i]? = some p)
    (hch : ch < 3) (hk : k < 8) :
    (frameCodes c pattern)[24 * i + (8 * ch + k)]? = some (durationCode c (sentBit (p.channel ch) k)) := by
  have hchannel : (List.range 3)[ch]? = some ch := by simp [hch]
  calc (frameCodes c pattern)[24 * i + (8 * ch + k)]?
      = (ledCodes c p)[8 * ch + k]? := getElem?_flatMap_block (length_ledCodes c) hp (by omega)
    _ = (channelCodes c (p.channel ch))[k]? := getElem?_flatMap_block (fun _ => length_channelCodes c _) hchannel hk
    _ = some (durationCode c (sentBit (p.channel ch) k)) := by simp [channelCodes, hk]

/-! #### The expansion of COMPOSE -/

theorem channelWrites_eq (c : Config) (i ch : Nat) (v : Byte) :
    channelWrites c i ch v = writesFrom (dataIndex i 0 0 + 8 * ch) (channelCodes c v) := rfl

theorem ledWrites_eq (c : Config) (i : Nat) (p : Led) :
    ledWrites c i p = writesFrom (dataIndex i 0 0) (ledCodes c p) :=
  flatMap_range_writesFrom _ 8 3 (fun ch => channelCodes c (p.channel ch)) fun _ => length_channelCodes c _

theorem frameWrites_eq (c : Config) (i : Nat) (pattern : List Led) :
    frameWrites c i pattern = writesFrom (dataIndex i 0 0) (frameCodes c pattern) := by
  induction pattern generalizing i with
  | nil => rfl
  | cons p pattern ih =>
    have hnext : dataIndex (i + 1) 0 0 = dataIndex i 0 0 + (ledCodes c p).length := by
      rw [length_ledCodes]; unfold dataIndex; omega
    calc frameWrites c i (p :: pattern)
        = writesFrom (dataIndex i 0 0) (ledCodes c p) ++ writesFrom (dataIndex (i + 1) 0 0) (frameCodes c pattern) := by
          rw [frameWrites, ledWrites_eq, ih]
      _ = writesFrom (dataIndex i 0 0) (ledCodes c p ++ frameCodes c pattern) := by
          rw [hnext, writesFrom_append]

/-- COMPOSE accepts the patterns of the right length (R126). -/
theorem compose_eq_none_iff (c : Config) (pattern : List Led) :
    compose c pattern = none ↔ pattern.length ≠ c.ledCount := by
  simp [compose, patternFits]

/-- COMPOSE writes the codes of the frame and the trailing sentinel, from index 1 to the end of the buffer (R125). -/
theorem compose_eq {c : Config} {pattern : List Led} (hlen : c.bufLen = 24 * c.ledCount + 2)
    (hpat : pattern.length = c.ledCount) :
    compose c pattern = some (writesFrom 1 (frameCodes c pattern ++ [Config.sentTrail])) := by
  have hlast : trailingIndex c = 1 + 24 * pattern.length := by unfold trailingIndex; omega
  rw [writesFrom_append, length_frameCodes, ← hlast]
  simp [compose, patternFits, hpat, frameWrites_eq, dataIndex]

/-- Settles O47: the values are the codes of the frame and the trailing sentinel. -/
theorem composeIsAscendingWritesOrRefused : Obligations.ComposeIsAscendingWritesOrRefused := by
  refine fun c pattern hlen => ⟨(compose_eq_none_iff c pattern).2, fun hpat => ?_⟩
  have hcount : (frameCodes c pattern ++ [Config.sentTrail]).length = 24 * c.ledCount + 1 := by simp [hpat]
  exact ⟨_, hcount, by rw [compose_eq hlen hpat, writesFrom, hcount]⟩

/-! #### The layout COMPOSE leaves -/

/-- The commands of COMPOSE, with no other step in between, store the frame behind entry 0 and change nothing else. -/
theorem runCommands_compose {s : State} {pattern : List Led} {is : List Instr}
    (hlen : s.cfg.bufLen = 24 * s.cfg.ledCount + 2) (hcomp : compose s.cfg pattern = some is) :
    pattern.length = s.cfg.ledCount ∧ ∃ t, runCommands is s = .next t ∧ SameApartFromBuffer s t
      ∧ t.mem.read 0 = s.mem.read 0
      ∧ ∀ j, t.mem.read (1 + j)
          = (frameCodes s.cfg pattern ++ [Config.sentTrail])[j]?.or (s.mem.read (1 + j)) := by
  have hpat : pattern.length = s.cfg.ledCount := by
    by_contra hne
    rw [(compose_eq_none_iff _ _).2 hne] at hcomp
    cases hcomp
  obtain rfl := Option.some.inj ((compose_eq hlen hpat).symm.trans hcomp)
  obtain ⟨t, hrun, hsame, hbelow, hfrom⟩ :=
    runCommands_writesFrom (n := 1) (vals := frameCodes s.cfg pattern ++ [Config.sentTrail]) (s := s)
      (by simp; omega)
  exact ⟨hpat, t, hrun, hsame, hbelow 0 Nat.one_pos, hfrom⟩

/-- Settles O48: entry 0 is BUFINIT's, and each later entry `1 + j` is value `j` of the frame that COMPOSE stores. -/
theorem composeFillsTheBuffer : Obligations.ComposeFillsTheBuffer := by
  intro s pattern is hlen hcomp
  obtain ⟨u, hinit, hlead, hbut, -, -, -, hsu⟩ := exec_bufinit (s := s) (by omega)
  rw [← hsu.cfg_eq] at hlen hcomp ⊢
  obtain ⟨hpat, t, hrun, hut, hzero, hread⟩ := runCommands_compose hlen hcomp
  have hstored {j : Nat} {b : Byte} (hj : (frameCodes u.cfg pattern ++ [Config.sentTrail])[j]? = some b) :
      t.mem.read (1 + j) = some b := by
    rw [hread, hj]; rfl
  have hdata {i ch k : Nat} {p : Led} (hp : pattern[i]? = some p) (hch : ch < 3) (hk : k < 8) :
      t.mem.read (dataIndex i ch k) = some (durationCode u.cfg (sentBit (p.channel ch) k)) := by
    have hindex : dataIndex i ch k = 1 + (24 * i + (8 * ch + k)) := by unfold dataIndex; omega
    have hcode := getElem?_frameCodes u.cfg hp hch hk
    rw [hindex]
    exact hstored (by rw [List.getElem?_append_left (List.getElem?_eq_some_iff.1 hcode).1, hcode])
  refine ⟨t, ?_, fun i p k hp hk => ⟨?_, ?_, ?_⟩, hzero.trans hlead, ?_, fun j hj => ?_, fun j hj => ?_,
    hsu.trans hut⟩
  · rw [runCommands, hinit]; exact hrun
  · exact hdata (ch := 0) hp (by decide) hk
  · exact hdata (ch := 1) hp (by decide) hk
  · exact hdata (ch := 2) hp (by decide) hk
  · rw [show u.cfg.bufLen - 1 = 1 + (frameCodes u.cfg pattern).length by simp; omega]
    exact hstored List.getElem?_concat_length
  · cases j with
    | zero => simp [hzero, hlead]
    | succ j =>
      have hin : j < (frameCodes u.cfg pattern ++ [Config.sentTrail]).length := by simp; omega
      rw [Nat.add_comm, hstored (List.getElem?_eq_getElem hin)]
      exact Option.some_ne_none _
  · obtain ⟨j, rfl⟩ := Nat.exists_eq_add_of_le (show 1 ≤ j by omega)
    rw [hread, List.getElem?_eq_none (by simp; omega)]
    exact hbut _ (by omega)

end Sys2Proof.Machine
end

section
/-! The Carrier Timer's commands and its state machine (spec/42_carrier_timer.md R140 to R142, R148): TCFG and TSTART
by their tests, and the two transitions they make. -/

namespace Sys2Proof.Machine

/-! #### TCFG -/

/-- TCFG reports the first check of the configuration that fails (R141, R213). -/
theorem exec_tcfg_of_configError {s : State} {code : FaultCode} (hready : s.sysReady = true)
    (hidle : s.tstate = .idle) (hcode : configError s.cfg = some code) : exec .tcfg s = raiseFault code s := by
  simp [exec, execTcfg, hready, hidle, hcode]

/-- TCFG programs the timer where every check passes (R141). -/
theorem exec_tcfg_of_configValid {s : State} (hready : s.sysReady = true) (hidle : s.tstate = .idle)
    (hvalid : configValid s.cfg = true) : exec .tcfg s = finish (programTimer s) := by
  simp [exec, execTcfg, hready, hidle, (configError_eq_none s.cfg).2 hvalid]

/-- Settles O15: each failing test is the one TCFG reports, and under a valid configuration its two numbers fit the
registers. -/
theorem tcfgTestsThenProgramsTheTimer : Obligations.TcfgTestsThenProgramsTheTimer := by
  refine ⟨decodeOfEncode .tcfg rfl, fun s => ⟨fun hready => ?_, fun hready hidle => ?_,
    fun hready hidle => ⟨fun hdur => ?_, fun hhigh hlow hlen => ?_, fun hhigh hlow hlen hprof => ?_, fun hvalid => ?_⟩⟩⟩
  · have hexec : exec .tcfg s = raiseFault .bootOrder s := by simp [exec, execTcfg, hready]
    exact hexec ▸ raiseFault_faultedWith .bootOrder s
  · have hexec : exec .tcfg s = raiseFault .stateOrder s := by simp [exec, execTcfg, hready, hidle]
    exact hexec ▸ raiseFault_faultedWith .stateOrder s
  · have hcode : configError s.cfg = some .cfgDuration := by simp only [configError, durationsFit]; simp [hdur]
    exact exec_tcfg_of_configError hready hidle hcode ▸ raiseFault_faultedWith .cfgDuration s
  · have hcode : configError s.cfg = some .cfgBufLen := by
      simp [configError, durationsFit, lengthFits, hhigh, hlow, hlen]
    exact exec_tcfg_of_configError hready hidle hcode ▸ raiseFault_faultedWith .cfgBufLen s
  · have hcode : configError s.cfg = some .cfgProfile := by
      simp only [configError, durationsFit, lengthFits, profileFits]; simp [hhigh, hlow, hlen, hprof]
    exact exec_tcfg_of_configError hready hidle hcode ▸ raiseFault_faultedWith .cfgProfile s
  · obtain ⟨-, -, -, -, -, -, hper, -, hpsc, -⟩ := (configValid_iff s.cfg).1 hvalid
    refine ⟨_, exec_tcfg_of_configValid hready hidle hvalid, ?_, ?_, ?_⟩
    · simp; omega
    · simp; omega
    · simp [channelEnabled, channelInterrupts, channelTriggers, outMode, sameEngine, sameBuffer, sameRecord,
        sameOutside]

/-! #### TSTART -/

theorem exec_tstart_of_configured {s : State} (h : s.tstate = .configured) :
    exec .tstart s = .next { s with tCnt := 0, tstate := .running, resp := none } := by
  simp [exec, execTstart, h]

theorem exec_tstart_of_not_configured {s : State} (h : s.tstate ≠ .configured) :
    exec .tstart s = raiseFault .stateOrder s :=
  if_pos h

/-! #### The two transitions -/

/-- A command leaves the whole timer as it was, or it is one of the two transitions (R140). -/
theorem exec_timer {i : Instr} {s t : State} (hx : exec i s = .next t) :
    sameTimer s t
    ∨ (s.tstate = .idle ∧ t.tstate = .configured ∧ i = .tcfg)
    ∨ (s.tstate = .configured ∧ t.tstate = .running ∧ i = .tstart) := by
  obtain ⟨code, -, rfl⟩ | ⟨-, rfl⟩ | ⟨bit, -, rfl⟩ | ⟨-, -, rfl⟩ | ⟨idx, val, -, -, rfl⟩ | ⟨idx, -, -, rfl⟩
    | ⟨rfl, -, hidle, -, rfl⟩ | ⟨rfl, hconf, rfl⟩ | ⟨-, -, -, rfl⟩ | ⟨-, -, -, rfl⟩ | ⟨n, -, -, rfl⟩ := exec_cases hx
  · -- a fault
    simp [sameTimer]
  · -- SYSINIT
    simp [sameTimer]
  · -- ENCODE
    simp [sameTimer]
  · -- BUFINIT
    simp [sameTimer]
  · -- BUFWR
    simp [sameTimer]
  · -- BUFRD
    simp [sameTimer]
  · -- TCFG
    exact .inr (.inl ⟨hidle, rfl, rfl⟩)
  · -- TSTART
    exact .inr (.inr ⟨hconf, rfl, rfl⟩)
  · -- DCFG
    simp [sameTimer]
  · -- DARM
    simp [sameTimer]
  · -- RDCR
    simp [sameTimer]

/-- Settles O30: short of RESET only a command writes `TSTATE`, and which one it was is `exec_timer`. -/
theorem timerTakesOnlyItsTwoTransitions : Obligations.TimerTakesOnlyItsTwoTransitions := by
  intro s t hs hm hne
  obtain ⟨-, rfl⟩ | ⟨w, ws, e, -, -, -, rfl⟩ | ⟨w, ws, i, -, -, -, hrun, hx⟩ | ⟨-, -, -, rfl⟩
    | ⟨-, -, -, -, rfl⟩ | ⟨henv, -⟩ := step_cases hs
  · -- a turn that passes
    simp at hne
  · -- an illegal word
    simp at hne
  · -- a command
    obtain ⟨hsame, -⟩ | ⟨hidle, hconf, rfl⟩ | ⟨hconf, hrunning, rfl⟩ := exec_timer hx
    · exact absurd (by simpa using hsame) hne
    · exact .inl ⟨by simpa using hidle, hconf, hrun⟩
    · exact .inr ⟨by simpa using hconf, hrunning, hrun⟩
  · -- `TICK`
    simp at hne
  · -- `DMAXFER`
    simp at hne
  · -- RESET
    exact absurd henv hm

end Sys2Proof.Machine
end

section
/-! The turns of the agents (spec/42_carrier_timer.md R143 to R149, spec/43_dma_streamer.md R169): the turn of an agent
whose step is not enabled passes, and a `TICK` counts, compares and triggers. -/

namespace Sys2Proof.Machine

/-! #### A turn that passes -/

theorem step_timer_disabled {s : State} {as : List Agent} (hs : s.sched = .timer :: as)
    (h : s.tstate ≠ .running ∨ s.dreq = true) : step s = .next { s with sched := as } := by
  rw [step_cons hs]
  exact if_neg (by simpa [tickEnabled, imp_iff_not_or] using h)

theorem step_dma_disabled {s : State} {as : List Agent} (hs : s.sched = .dma :: as)
    (h : s.armed = false ∨ s.dreq = false) : step s = .next { s with sched := as } := by
  rw [step_cons hs]
  exact if_neg (by simpa [dmaEnabled, imp_iff_not_or] using h)

theorem step_host_idle {s : State} {as : List Agent} (hs : s.sched = .host :: as) (hp : s.program = []) :
    step s = .next { s with sched := as } := by
  rw [step_cons hs]
  simp [agentStep, hostStep, hp]

/-- Settles O7: none of the three guards holds. -/
theorem disabledAgentDoesNothing : Obligations.DisabledAgentDoesNothing :=
  fun _ _ => ⟨step_timer_disabled, step_dma_disabled, step_host_idle⟩

/-! #### `TICK` -/

/-- The timer's turn where `TICK` is enabled (R147). -/
theorem step_timer {s : State} {as : List Agent} (hs : s.sched = .timer :: as) (hrun : s.tstate = .running)
    (hreq : s.dreq = false) : step s = .next (tick { s with sched := as }) := by
  rw [step_cons hs]
  exact if_pos (by simp [tickEnabled, hrun, hreq])

theorem nextCount_of_rollover {s : State} (h : s.tCnt = s.tTop) : nextCount s = 0 := by
  simp [nextCount, rollsOver, h]

theorem nextCount_of_ne {s : State} (h : s.tCnt ≠ s.tTop) : nextCount s = s.tCnt + 1 := by
  simp [nextCount, rollsOver, h]

/-- On a match the line is cleared, also at 0 (R145). -/
theorem nextOut_of_match {n ccb : Byte} (out : Bool) (h : n = ccb) : nextOut n ccb out = false := if_pos h

/-- At 0 the line is set, short of a match (R145). -/
theorem nextOut_zero (ccb : Byte) (out : Bool) : nextOut 0 ccb out = true ↔ ccb ≠ 0 := by
  by_cases h : 0 = ccb
  · rw [nextOut_of_match out h]
    simp [← h]
  · have hset : nextOut 0 ccb out = true := (if_neg h).trans (if_pos rfl)
    exact iff_of_true hset (Ne.symm h)

/-- Between 0 and the match the line stays (R145). -/
theorem nextOut_of_ne {n ccb : Byte} (out : Bool) (h : n ≠ ccb) (hzero : n ≠ 0) : nextOut n ccb out = out :=
  (if_neg h).trans (if_neg hzero)

/-- Settles O23: the three fields that `TICK` writes, by their rules, and its frame. -/
theorem tickCountsComparesAndTriggers : Obligations.TickCountsComparesAndTriggers := by
  intro s as hs hrun hreq
  refine ⟨_, step_timer hs hrun hreq, nextCount_of_rollover (s := { s with sched := as }),
    nextCount_of_ne (s := { s with sched := as }), nextOut_of_match _, fun hne hzero => ?_, nextOut_of_ne _, ?_, ?_⟩
  · rw [tick_tCnt] at hne hzero
    rw [tick_out, hzero]
    exact (nextOut_zero _ _).2 (hzero ▸ hne).symm
  · simp [nextRequest_eq_true_iff, hreq]
  · simp [sameBuffer, sameRecord]

/-- Settles O40: only `TICK` writes `OUT`, and its set at 0 is a match too; only `DMAXFER` writes `T_CCB`. -/
theorem idleCarrierStaysLow : Obligations.IdleCarrierStaysLow := by
  intro s t _ harm hccb hout hs
  obtain ⟨-, rfl⟩ | ⟨w, ws, e, -, -, -, rfl⟩ | ⟨w, ws, i, -, -, -, -, hx⟩ | ⟨-, -, -, rfl⟩
    | ⟨-, harmed, -, -, rfl⟩ | ⟨-, rfl⟩ := step_cases hs
  · -- a turn that passes
    simp [hccb, hout]
  · -- an illegal word
    simp [hccb, hout]
  · -- a command
    obtain ⟨-, -, -, hccb', hout', -⟩ := exec_writers hx
    simp [hccb', hout', hccb, hout]
  · -- `TICK`
    simp [nextOut, hccb, hout]
  · -- `DMAXFER`
    simp [harm] at harmed
  · -- RESET
    simp

end Sys2Proof.Machine
end

section
/-! The carrier period (spec/42_carrier_timer.md R142, R143, R152): from one rollover to the next no request is raised,
the compare value stands still, and the line falls at the match, under any host activity. -/

namespace Sys2Proof.Machine

/-! #### Runs -/

/-- A run by its first step. -/
theorem runSteps_succ {s t : State} (n : Nat) (h : step s = .next t) : runSteps (n + 1) s = runSteps n t := by
  simp only [runSteps, h]

/-- A run keeps the invariant (R45). -/
theorem StateInv.afterRun {n : Nat} {s t : State} (h : StateInv s) (hrun : runSteps n s = .next t) : StateInv t := by
  induction n generalizing s with
  | zero => cases hrun; exact h
  | succ n ih =>
    cases hs : step s with
    | next u => exact ih (everyStepKeepsTheInvariant s u h hs) (runSteps_succ n hs ▸ hrun)
    | fault r => simp [runSteps, hs] at hrun
    | refused r => simp [runSteps, hs] at hrun

/-- A programmed timer stands over a buffer that has entries (R45(b), R6). -/
theorem StateInv.bufLen_pos {s : State} (h : StateInv s) (hrun : s.tstate = .running) : 0 < s.cfg.bufLen := by
  obtain ⟨-, -, -, -, -, -, hvalid⟩ := h.programmed (by simp [hrun])
  obtain ⟨-, -, hlen, -⟩ := (configValid_iff s.cfg).1 hvalid
  omega

/-! #### A host turn beside a running timer -/

/-- A test whose two branches answer a next state answers one. -/
theorem exists_next_ite {p : Prop} [Decidable p] {x y : Outcome} (hx : ∃ t, x = .next t) (hy : ∃ t, y = .next t) :
    ∃ t, (if p then x else y) = .next t := by
  split <;> assumption

/-- Every command is answered where the buffer has an entry (R218). -/
theorem exec_answers (i : Instr) {s : State} (h : 0 < s.cfg.bufLen) : ∃ t, exec i s = .next t := by
  cases i with
  | sysinit => exact ⟨_, rfl⟩
  | encode bit => exact ⟨_, rfl⟩
  | bufinit => exact (exec_bufinit h).imp fun _ => And.left
  | bufwr idx val => exact exists_next_ite ⟨_, rfl⟩ ⟨_, rfl⟩
  | bufrd idx => exact exists_next_ite ⟨_, rfl⟩ ⟨_, rfl⟩
  | tcfg => exact exists_next_ite ⟨_, rfl⟩ (exists_next_ite ⟨_, rfl⟩ (by split <;> exact ⟨_, rfl⟩))
  | tstart => exact exists_next_ite ⟨_, rfl⟩ ⟨_, rfl⟩
  | dcfg => exact exists_next_ite ⟨_, rfl⟩ (exists_next_ite ⟨_, rfl⟩ ⟨_, rfl⟩)
  | darm => exact exists_next_ite ⟨_, rfl⟩ (exists_next_ite ⟨_, rfl⟩ ⟨_, rfl⟩)
  | rdcr n => exact exists_next_ite ⟨_, rfl⟩ ⟨_, rfl⟩

/-- No command touches the schedule. -/
theorem exec_sched {i : Instr} {s t : State} (hx : exec i s = .next t) : t.sched = s.sched := by
  obtain ⟨code, -, rfl⟩ | ⟨-, rfl⟩ | ⟨bit, -, rfl⟩ | ⟨-, -, rfl⟩ | ⟨idx, val, -, -, rfl⟩ | ⟨idx, -, -, rfl⟩
    | ⟨-, -, -, -, rfl⟩ | ⟨-, -, rfl⟩ | ⟨-, -, -, rfl⟩ | ⟨-, -, -, rfl⟩ | ⟨n, -, -, rfl⟩ := exec_cases hx <;> simp

/-- The timer, the request and the configuration are as they were. -/
def TimerUntouched (s t : State) : Prop := t.cfg = s.cfg ∧ t.dreq = s.dreq ∧ sameTimer s t

theorem TimerUntouched.refl (s : State) : TimerUntouched s s := by simp [TimerUntouched, sameTimer]

theorem TimerUntouched.trans {s t u : State} (hst : TimerUntouched s t) (htu : TimerUntouched t u) :
    TimerUntouched s u := by
  simp_all [TimerUntouched, sameTimer]

/-- A command beside a running timer touches neither it nor the request (R141, R142: both its commands fault). -/
theorem exec_timerUntouched {i : Instr} {s t : State} (hrun : s.tstate = .running) (hx : exec i s = .next t) :
    TimerUntouched s t := by
  refine ⟨exec_cfg hx, exec_dreq hx, ?_⟩
  obtain hsame | ⟨hidle, -⟩ | ⟨hconf, -⟩ := exec_timer hx
  · exact hsame
  · simp [hrun] at hidle
  · simp [hrun] at hconf

/-- A host turn beside a running timer is answered, and touches neither it nor the request. -/
theorem step_host {s : State} {as : List Agent} (hs : s.sched = .host :: as) (hrun : s.tstate = .running)
    (hbuf : 0 < s.cfg.bufLen) : ∃ t, step s = .next t ∧ t.sched = as ∧ TimerUntouched s t := by
  cases hp : s.program with
  | nil => exact ⟨_, step_host_idle hs hp, rfl, by simp [TimerUntouched, sameTimer]⟩
  | cons w ws =>
    rw [step_host_cons hs hp]
    cases hd : decode w with
    | error e => exact ⟨_, present_error _ hd, by simp, by simp [TimerUntouched, sameTimer]⟩
    | ok i =>
      obtain ⟨t, hx⟩ := exec_answers i (s := { s with sched := as, program := ws }) hbuf
      exact ⟨t, (present_ok _ hd).trans hx, exec_sched hx,
        exec_timerUntouched (s := { s with sched := as, program := ws }) hrun hx⟩

/-- A run of host turns beside a running timer. -/
theorem runSteps_hosts {rest : List Agent} (hosts : List Agent) {s : State} (hs : s.sched = hosts ++ rest)
    (hhost : ∀ a ∈ hosts, a = .host) (hrun : s.tstate = .running) (hbuf : 0 < s.cfg.bufLen) :
    ∃ t, runSteps hosts.length s = .next t ∧ t.sched = rest ∧ TimerUntouched s t := by
  induction hosts generalizing s with
  | nil => exact ⟨s, rfl, hs, .refl s⟩
  | cons a hosts ih =>
    obtain ⟨rfl, hhost'⟩ := List.forall_mem_cons.1 hhost
    obtain ⟨u, hstep, hsched, hu⟩ := step_host hs hrun hbuf
    have ⟨hcfg, _, htstate, _⟩ := hu
    obtain ⟨t, ht, hrest, hut⟩ := ih hsched hhost' (htstate.trans hrun) (hcfg ▸ hbuf)
    exact ⟨t, (runSteps_succ _ hstep).trans ht, hrest, hu.trans hut⟩

/-! #### Between two rollovers -/

/-- `t` is `n` ticks after `s` in the same period: the counter is `n` further, nothing else of what the line depends
on has changed, and the line has fallen exactly if the counter came to the compare value (R143 to R145). -/
structure TicksOn (n : Nat) (s t : State) : Prop where
  cfg : t.cfg = s.cfg
  tstate : t.tstate = s.tstate
  top : t.tTop = s.tTop
  request : t.dreq = s.dreq
  compare : t.tCcb = s.tCcb
  count : t.tCnt.toNat = s.tCnt.toNat + n
  line : t.out = true ↔ s.out = true ∧ ¬ (s.tCnt.toNat < s.tCcb.toNat ∧ s.tCcb.toNat ≤ t.tCnt.toNat)

theorem TimerUntouched.ticksOn {s t : State} (h : TimerUntouched s t) : TicksOn 0 s t := by
  obtain ⟨hcfg, hreq, htstate, htop, -, hcnt, -, -, hccb, -, hout⟩ := h
  exact ⟨hcfg, htstate, htop, hreq, hccb, by rw [hcnt]; rfl, by rw [hout, hcnt]; simp⟩

theorem TicksOn.trans {m n : Nat} {s t u : State} (hst : TicksOn m s t) (htu : TicksOn n t u) :
    TicksOn (m + n) s u where
  cfg := htu.cfg.trans hst.cfg
  tstate := htu.tstate.trans hst.tstate
  top := htu.top.trans hst.top
  request := htu.request.trans hst.request
  compare := htu.compare.trans hst.compare
  count := by rw [htu.count, hst.count, Nat.add_assoc]
  line := by
    have hm := hst.count
    have hn := htu.count
    rw [htu.line, hst.line, hst.compare, and_assoc, and_congr_right_iff]
    omega

/-- A `TICK` short of the rollover. -/
theorem tick_ticksOn {s : State} (hlt : s.tCnt.toNat < s.tTop.toNat) : TicksOn 1 s (tick s) := by
  have hne : s.tCnt ≠ s.tTop := by rintro h; simp [h] at hlt
  have hcnt : (tick s).tCnt = s.tCnt + 1 := nextCount_of_ne hne
  have htoNat : (s.tCnt + 1).toNat = s.tCnt.toNat + 1 := by bv_omega
  refine ⟨rfl, rfl, rfl, ?_, rfl, by rw [hcnt, htoNat], ?_⟩
  · simp [nextRequest, rollsOver, hne]
  · rw [tick_out, ← tick_tCnt, hcnt, htoNat]
    by_cases hmatch : s.tCnt + 1 = s.tCcb
    · have hccb : s.tCcb.toNat = s.tCnt.toNat + 1 := by rw [← hmatch, htoNat]
      rw [nextOut_of_match _ hmatch]
      simp [hccb]
    · have hccb : s.tCcb.toNat ≠ s.tCnt.toNat + 1 := fun h => hmatch (BitVec.eq_of_toNat_eq (htoNat.trans h.symm))
      have hzero : s.tCnt + 1 ≠ 0 := fun h => by rw [h] at htoNat; simp at htoNat
      rw [nextOut_of_ne _ hmatch hzero, iff_self_and]
      omega

/-- A turn within a period, of any agent but the environment: nothing is requested, so only the timer moves. -/
theorem step_ticksOn {s : State} {a : Agent} {as : List Agent} (hs : s.sched = a :: as) (ha : a ≠ .environment)
    (hrun : s.tstate = .running) (hreq : s.dreq = false) (hbuf : a = .host → 0 < s.cfg.bufLen)
    (hlt : a = .timer → s.tCnt.toNat < s.tTop.toNat) :
    ∃ t, step s = .next t ∧ t.sched = as ∧ TicksOn ([a].count .timer) s t := by
  cases a with
  | host =>
    obtain ⟨t, hstep, hsched, ht⟩ := step_host hs hrun (hbuf rfl)
    exact ⟨t, hstep, hsched, ht.ticksOn⟩
  | timer =>
    have ht := tick_ticksOn (s := { s with sched := as }) (hlt rfl)
    exact ⟨_, step_timer hs hrun hreq, rfl, { ht with }⟩
  | dma =>
    have ht : TimerUntouched s { s with sched := as } := .refl s
    exact ⟨_, step_dma_disabled hs (.inr hreq), rfl, ht.ticksOn⟩
  | environment => exact absurd rfl ha

/-- A run within a period: the counter moves on by the timer's turns of the schedule. -/
theorem runSteps_ticksOn {rest : List Agent} (l : List Agent) {s : State} (hs : s.sched = l ++ rest)
    (henv : .environment ∉ l) (hrun : s.tstate = .running) (hreq : s.dreq = false)
    (hbuf : .host ∈ l → 0 < s.cfg.bufLen) (hle : s.tCnt.toNat + l.count .timer ≤ s.tTop.toNat) :
    ∃ t, runSteps l.length s = .next t ∧ t.sched = rest ∧ TicksOn (l.count .timer) s t := by
  induction l generalizing s with
  | nil => exact ⟨s, rfl, hs, (TimerUntouched.refl s).ticksOn⟩
  | cons a l ih =>
    obtain ⟨ha, henv'⟩ := List.ne_and_not_mem_of_not_mem_cons henv
    have hcount : (a :: l).count .timer = [a].count .timer + l.count .timer := List.count_append (l₁ := [a])
    rw [hcount] at hle ⊢
    obtain ⟨u, hstep, hsched, hu⟩ := step_ticksOn hs ha.symm hrun hreq (fun h => hbuf (by simp [h]))
      (by rintro rfl; rw [List.count_singleton_self] at hle; omega)
    obtain ⟨t, ht, hrest, hut⟩ := ih hsched henv' (hu.tstate.trans hrun) (hu.request.trans hreq)
      (fun h => hu.cfg ▸ hbuf (.tail a h)) (by rw [hu.count, hu.top]; omega)
    exact ⟨t, (runSteps_succ _ hstep).trans ht, hrest, hu.trans hut⟩

/-- Settles O16: TSTART by its test; after it the counter starts at 0, so the first `T_TOP` ticks are a run within a
period. -/
theorem tstartRunsTheCounterOrFaultsSix : Obligations.TstartRunsTheCounterOrFaultsSix := by
  refine ⟨decodeOfEncode .tstart rfl, fun s => ⟨fun hconf => ?_, fun hne => ?_, fun t m rest hconf hreq hx hm => ?_⟩⟩
  · exact ⟨_, exec_tstart_of_configured hconf, by simp [sameEngine, sameBuffer, sameRecord, sameOutside]⟩
  · exact exec_tstart_of_not_configured hne ▸ raiseFault_faultedWith .stateOrder s
  · rw [exec_tstart_of_configured hconf] at hx
    cases hx
    have hcount : (List.replicate m Agent.timer).count .timer = m := List.count_replicate_self
    have hlen : (List.replicate m Agent.timer).length = m := List.length_replicate
    obtain ⟨u, hu, hrest, hon⟩ := runSteps_ticksOn (List.replicate m .timer) (rest := rest)
      (s := { s with tCnt := 0, tstate := .running, resp := none, sched := List.replicate m .timer ++ rest })
      rfl (by simp) rfl hreq (by simp) (by simpa [hcount] using hm)
    rw [hlen] at hu
    rw [hcount] at hon
    exact ⟨u, hu, by simpa using hon.count, hon.request.trans hreq, hrest⟩

/-! #### The period lemma -/

/-- The engine's turn, whether or not a request waits for it: afterwards none does, and the compare value is a new
one only if one did (R169). -/
theorem step_dma {s : State} {as : List Agent} (h : StateInv s) (hs : s.sched = .dma :: as) :
    ∃ t, step s = .next t ∧ t.sched = as ∧ t.dreq = false ∧ t.cfg = s.cfg ∧ t.tstate = s.tstate
      ∧ t.tTop = s.tTop ∧ t.tCnt = s.tCnt ∧ t.out = s.out ∧ (s.dreq = false → t.tCcb = s.tCcb) := by
  cases hreq : s.dreq with
  | false => exact ⟨_, step_dma_disabled hs (.inr hreq), by simp [hreq]⟩
  | true =>
    obtain ⟨harm, -, -⟩ := h.requested hreq
    have henabled : agentStep .dma { s with sched := as } = dmaxfer { s with sched := as } := agentStep_dma harm hreq
    have hmove := dmaxfer_inside (s := { s with sched := as }) (h.source_inside harm)
    exact ⟨_, (step_cons hs).trans (henabled.trans hmove), by simp⟩

/-- The rollover tick (R144, R145): the counter is at 0, the line is high exactly if the compare value is not 0, and
a request is raised exactly if the engine is armed. -/
theorem step_rollover {s : State} {as : List Agent} (hs : s.sched = .timer :: as) (hrun : s.tstate = .running)
    (hreq : s.dreq = false) (hroll : s.tCnt = s.tTop) :
    ∃ t, step s = .next t ∧ t.sched = as ∧ t.cfg = s.cfg ∧ t.tstate = .running ∧ t.tTop = s.tTop ∧ t.tCnt = 0
      ∧ t.tCcb = s.tCcb ∧ (t.out = true ↔ s.tCcb ≠ 0) ∧ t.dreq = s.armed := by
  have hzero : nextCount { s with sched := as } = 0 := nextCount_of_rollover (s := { s with sched := as }) hroll
  refine ⟨_, step_timer hs hrun hreq, rfl, rfl, hrun, rfl, hzero, rfl, ?_, ?_⟩
  · rw [tick_out, hzero]
    exact nextOut_zero _ _
  · rw [tick_dreq, Bool.eq_iff_iff, nextRequest_eq_true_iff]
    simp [hroll, hreq]

/-- From a rollover through the `DMAXFER` turn that follows it (R145, R152): the counter stands at 0, and the line is
high exactly if the compare value before the rollover is not 0. -/
theorem runSteps_rollover {s : State} {hosts rest : List Agent} (h : StateInv s) (hrun : s.tstate = .running)
    (hreq : s.dreq = false) (hroll : s.tCnt = s.tTop) (hs : s.sched = .timer :: (hosts ++ .dma :: rest))
    (hhost : ∀ a ∈ hosts, a = .host) :
    ∃ r, runSteps (hosts.length + 2) s = .next r ∧ r.sched = rest ∧ r.dreq = false ∧ r.cfg = s.cfg
      ∧ r.tstate = .running ∧ r.tTop = s.tTop ∧ r.tCnt = 0 ∧ (r.out = true ↔ s.tCcb ≠ 0)
      ∧ (s.armed = false → r.tCcb = s.tCcb) := by
  obtain ⟨v, htick, hsched, hcfg, htstate, htop, hcnt, hccb, hout, hdreq⟩ := step_rollover hs hrun hreq hroll
  have hv : StateInv v := everyStepKeepsTheInvariant s v h htick
  obtain ⟨u, hhosts, hsched', hcfg', hdreq', htstate', htop', -, hcnt', -, -, hccb', -, hout'⟩ :=
    runSteps_hosts hosts hsched hhost htstate (hv.bufLen_pos htstate)
  obtain ⟨r, hdma, hsched'', hdreq'', hcfg'', htstate'', htop'', hcnt'', hout'', hccb''⟩ :=
    step_dma (hv.afterRun hhosts) hsched'
  refine ⟨r, ?_, hsched'', hdreq'', by rw [hcfg'', hcfg', hcfg], by rw [htstate'', htstate', htstate],
    by rw [htop'', htop', htop], by rw [hcnt'', hcnt', hcnt], by rw [hout'', hout', hout], fun harm => ?_⟩
  · calc runSteps (hosts.length + 2) s
        = runSteps (hosts.length + 1) v := runSteps_succ _ htick
      _ = runSteps 1 u := runSteps_add hhosts
      _ = .next r := runSteps_succ 0 hdma
  · rw [hccb'' (by rw [hdreq', hdreq, harm]), hccb', hccb]

/-- Settles O41: the rollover up to the `DMAXFER` turn (`runSteps_rollover`), then a run within the period that starts
at counter 0 (`runSteps_ticksOn`). -/
theorem periodLemma : Obligations.PeriodLemma := by
  intro s hosts l rest h hrun hreq hroll hs hhost henv hle
  obtain ⟨r, hr, hrsched, hrdreq, hrcfg, hrtstate, hrtop, hrcnt, hrout, hrccb⟩ :=
    runSteps_rollover h hrun hreq hroll hs hhost
  have hzero : r.tCnt.toNat = 0 := by simp [hrcnt]
  obtain ⟨t, ht, -, hon⟩ := runSteps_ticksOn l hrsched henv hrtstate hrdreq
    (fun _ => hrcfg ▸ h.bufLen_pos hrun) (by rw [hzero, hrtop]; omega)
  have hcnt : t.tCnt.toNat = l.count .timer := by rw [hon.count, hzero, Nat.zero_add]
  have hline : t.out = true ↔ s.tCcb ≠ 0 ∧ ¬ (0 < r.tCcb.toNat ∧ r.tCcb.toNat ≤ l.count .timer) := by
    rw [hon.line, hrout, hzero, hcnt]
  refine ⟨r, t, hr, (runSteps_add hr).trans ht, hrccb, hcnt, hon.compare, fun hp => ?_, fun hp hpos _ => ?_,
    fun hp hq => ?_⟩
  · exact Bool.eq_false_iff.2 fun hout => (hline.1 hout).1 hp
  · rw [hline]
    simp only [ne_eq, hp, not_false_eq_true, true_and]
    omega
  · have hq' : r.tCcb.toNat = 0 ∨ s.tTop.toNat < r.tCcb.toNat := hq.imp_left fun h0 => by simp [h0]
    exact hline.2 ⟨hp, by omega⟩

end Sys2Proof.Machine
end

section
/-! The commands of the DMA Streaming Engine and its step `DMAXFER` (spec/43_dma_streamer.md R165 to R177): DCFG and
DARM by their tests, the one byte that `DMAXFER` moves, and what starts and ends a transfer. -/

namespace Sys2Proof.Machine

/-! #### DCFG -/

theorem exec_dcfg_in_flight {s : State} (harm : s.armed = true) : exec .dcfg s = raiseFault .stateOrder s :=
  if_pos harm

theorem exec_dcfg_wrong_length {s : State} (harm : s.armed = false) (hlen : s.cfg.bufLen ≠ 24 * s.cfg.ledCount + 2) :
    exec .dcfg s = raiseFault .cfgBufLen s := by
  simp [exec, execDcfg, lengthFits, harm, hlen]

theorem exec_dcfg_at_rest {s : State} (harm : s.armed = false) (hlen : s.cfg.bufLen = 24 * s.cfg.ledCount + 2) :
    exec .dcfg s
      = .next { s with dCtl := 0x0D, dLen := lengthRegister s.cfg, dCfgd := true, resp := none } := by
  simp [exec, execDcfg, lengthFits, harm, hlen]

/-- Settles O17: by its two tests; past them it writes `D_CTL`, whose fields are those of the constant 0x0D, `D_LEN` and
`D_CFGD`. -/
theorem dcfgTestsThenConfiguresTheEngine : Obligations.DcfgTestsThenConfiguresTheEngine := by
  refine ⟨decodeOfEncode .dcfg rfl, fun s => ⟨fun harm => ?_, fun harm hlen => ?_, fun harm hlen => ?_⟩⟩
  · exact exec_dcfg_in_flight harm ▸ raiseFault_faultedWith .stateOrder s
  · exact exec_dcfg_wrong_length harm hlen ▸ raiseFault_faultedWith .cfgBufLen s
  · refine ⟨_, exec_dcfg_at_rest harm hlen, rfl, ?_⟩
    simpa [trigSel, priority, sourceIncrements, destIncrements, wordSized, completionInterrupts, repeats, sameTimer,
      sameBuffer, sameRecord, sameOutside] using lengthRegister_toNat (c := s.cfg)

/-! #### DARM -/

theorem exec_darm_unconfigured {s : State} (hconf : s.dCfgd = false) : exec .darm s = raiseFault .stateOrder s := by
  simp [exec, execDarm, hconf]

theorem exec_darm_in_flight {s : State} (hconf : s.dCfgd = true) (harm : s.armed = true) :
    exec .darm s = raiseFault .reArmInFlight s := by
  simp [exec, execDarm, hconf, harm]

theorem exec_darm_at_rest {s : State} (hconf : s.dCfgd = true) (harm : s.armed = false) :
    exec .darm s = .next { s with dSrc := 0, dRem := s.dLen, armed := true, resp := none } := by
  simp [exec, execDarm, hconf, harm]

/-- Settles O18: by its two tests; no test looks at the timer. -/
theorem darmTestsThenArmsTheEngine : Obligations.DarmTestsThenArmsTheEngine := by
  refine ⟨decodeOfEncode .darm rfl, fun s => ⟨fun hconf => ?_, fun hconf harm => ?_, fun hconf harm => ?_⟩⟩
  · exact exec_darm_unconfigured hconf ▸ raiseFault_faultedWith .stateOrder s
  · exact exec_darm_in_flight hconf harm ▸ raiseFault_faultedWith .reArmInFlight s
  · exact ⟨_, exec_darm_at_rest hconf harm, by simp [sameTimer, sameBuffer, sameRecord, sameOutside]⟩

/-! #### `DMAXFER` -/

/-- The engine's turn where a request waits for an armed engine (R169). -/
theorem step_dma_enabled {s : State} {as : List Agent} (hs : s.sched = .dma :: as) (harm : s.armed = true)
    (hreq : s.dreq = true) (hin : s.dSrc.toNat < s.cfg.bufLen) :
    step s = .next (moveByte (memRead .dma s.dSrc.toNat { s with sched := as }).1
      (memRead .dma s.dSrc.toNat { s with sched := as }).2) :=
  calc step s = agentStep .dma { s with sched := as } := step_cons hs
    _ = dmaxfer { s with sched := as } := agentStep_dma harm hreq
    _ = _ := dmaxfer_inside (s := { s with sched := as }) hin

/-- `if CR.D_REM = 0 then CR.ARMED <- 0` (R169): the engine is disarmed exactly where the count is used up. -/
theorem stillArmed_true_eq_false_iff (rem : Half) : stillArmed rem true = false ↔ rem = 0 := by
  rw [← Bool.not_eq_true, stillArmed_true_iff, not_not]

/-- Settles O24: the byte and `FAULT` are those of `MemRead`, the rest is what `moveByte` writes. -/
theorem dmaxferMovesOneByte : Obligations.DmaxferMovesOneByte := by
  intro s as hs harm hreq hin
  refine ⟨_, step_dma_enabled hs harm hreq hin, fun b hb => ?_, fun hnone => ?_, ?_⟩
  · simp [memRead_written (s := { s with sched := as }) hb]
  · simp [memRead_fault, hnone]
  · simp [advanceSource, countDown, harm, stillArmed_true_eq_false_iff, sameBuffer]

/-! #### What starts and ends a transfer -/

/-- Of the commands only DARM writes `ARMED`, and it sets it (R177). -/
theorem exec_armed {i : Instr} {s t : State} (hx : exec i s = .next t) :
    t.armed = s.armed ∨ (i = .darm ∧ s.dCfgd = true ∧ s.armed = false) := by
  obtain ⟨code, -, rfl⟩ | ⟨-, rfl⟩ | ⟨bit, -, rfl⟩ | ⟨-, -, rfl⟩ | ⟨idx, val, -, -, rfl⟩ | ⟨idx, -, -, rfl⟩
    | ⟨-, -, -, -, rfl⟩ | ⟨-, -, rfl⟩ | ⟨-, -, -, rfl⟩ | ⟨hi, hconf, harm, -⟩ | ⟨n, -, -, rfl⟩ := exec_cases hx
  · -- a fault
    simp
  · -- SYSINIT
    simp
  · -- ENCODE
    simp
  · -- BUFINIT
    simp
  · -- BUFWR
    simp
  · -- BUFRD
    simp
  · -- TCFG
    simp
  · -- TSTART
    simp
  · -- DCFG
    simp
  · -- DARM
    exact .inr ⟨hi, hconf, harm⟩
  · -- RDCR
    simp

/-- Settles O31: short of RESET only DARM and `DMAXFER` write `ARMED`; the latter clears it where the count comes to
0. -/
theorem transferEndsOnlyByItsLastByte : Obligations.TransferEndsOnlyByItsLastByte := by
  intro s t hs hm hne
  obtain ⟨-, rfl⟩ | ⟨w, ws, e, -, -, -, rfl⟩ | ⟨w, ws, i, -, -, -, hrun, hx⟩ | ⟨-, -, -, rfl⟩
    | ⟨hdma, harm, hreq, -, rfl⟩ | ⟨henv, -⟩ := step_cases hs
  · -- a turn that passes
    simp at hne
  · -- an illegal word
    simp at hne
  · -- a command
    obtain hsame | ⟨rfl, hconf, harm⟩ := exec_armed hx
    · exact absurd (by simpa using hsame) hne
    · exact .inl ⟨by simpa using harm, hrun, by simpa using hconf⟩
  · -- `TICK`
    simp at hne
  · -- `DMAXFER`
    have hzero : s.dRem - 1 = 0 := by simpa [harm, stillArmed_true_eq_false_iff, countDown] using hne
    exact .inr ⟨harm, hdma, hreq, by bv_omega⟩
  · -- RESET
    exact absurd henv hm

/-- A host turn is answered where the buffer has an entry: an illegal word by fault 1, a command as R218 says. -/
theorem hostStep_answers {s : State} (h : 0 < s.cfg.bufLen) : ∃ t, hostStep s = .next t := by
  cases hp : s.program with
  | nil => exact ⟨s, by simp only [hostStep, hp]⟩
  | cons w ws =>
    rw [hostStep_cons hp]
    cases hd : decode w with
    | error e => exact ⟨_, present_error _ hd⟩
    | ok i => exact present_ok _ hd ▸ exec_answers i (s := { s with program := ws }) h

/-- Settles O36: a `DMAXFER` reads inside the buffer (`StateInv.source_inside`), a host turn is answered where the
buffer has an entry, and no other step can stop. -/
theorem machineNeverStops : Obligations.MachineNeverStops := by
  intro s h hbuf
  have hturn := h.afterTurn
  unfold step
  cases (nextAgent s).1 with
  | host => exact hostStep_answers (by simpa using hbuf)
  | timer => exact exists_next_ite ⟨_, rfl⟩ ⟨_, rfl⟩
  | dma =>
    cases he : dmaEnabled (nextAgent s).2 with
    | false => exact ⟨_, if_neg (by simp [he])⟩
    | true =>
      have harm : (nextAgent s).2.armed = true := (Bool.and_eq_true_iff.1 he).1
      exact ⟨_, (if_pos he).trans (dmaxfer_inside (hturn.source_inside harm))⟩
  | environment => exact ⟨_, rfl⟩

end Sys2Proof.Machine
end

section
/-! The place in a transfer (spec/43_dma_streamer.md R169 to R171, R175): the counter and the bytes moved are the
remainder and the quotient of one tick count by the period, under any host activity while the engine is armed, and
afterwards with no host step in between. -/

namespace Sys2Proof.Machine

/-! #### What a run keeps -/

/-- A step uses up one turn of the schedule. -/
theorem step_sched {s t : State} (h : step s = .next t) : t.sched = s.sched.tail := by
  obtain ⟨-, rfl⟩ | ⟨w, ws, e, -, -, -, rfl⟩ | ⟨w, ws, i, -, -, -, -, hx⟩ | ⟨-, -, -, rfl⟩ | ⟨-, -, -, -, rfl⟩
    | ⟨-, rfl⟩ := step_cases h
  · -- a turn that passes
    simp
  · -- an illegal word
    simp
  · -- a command
    simpa using exec_sched hx
  · -- `TICK`
    simp
  · -- `DMAXFER`
    simp
  · -- RESET
    simp

/-- What every step of a schedule's agents keeps, a run of the schedule keeps. -/
theorem runSteps_keeps {P : State → Prop} {l rest : List Agent} {s t : State}
    (hkeep : ∀ u v, StateInv u → moving u ∈ l → step u = .next v → P u → P v) (h : StateInv s)
    (hs : s.sched = l ++ rest) (hrun : runSteps l.length s = .next t) (hP : P s) : P t := by
  induction l generalizing s with
  | nil => cases hrun; exact hP
  | cons a l ih =>
    cases hstep : step s with
    | next u =>
      have hsched : u.sched = l ++ rest := by rw [step_sched hstep, hs]; rfl
      have hu : P u := hkeep s u h (by rw [moving_cons hs]; exact .head l) hstep hP
      exact ih (fun v w hv hm => hkeep v w hv (.tail a hm)) (everyStepKeepsTheInvariant s u h hstep) hsched
        (by rwa [List.length_cons, runSteps_succ _ hstep] at hrun) hu
    | fault r => simp [runSteps, hstep] at hrun
    | refused r => simp [runSteps, hstep] at hrun

/-! #### A transfer beside host turns -/

/-- No command disturbs a transfer in flight: DCFG and DARM fault (R166, R173). -/
theorem exec_keeps_transfer {i : Instr} {s t : State} (harm : s.armed = true) (hx : exec i s = .next t) :
    t.armed = true ∧ t.dSrc = s.dSrc := by
  constructor
  · obtain hsame | ⟨-, -, hrest⟩ := exec_armed hx
    · exact hsame.trans harm
    · simp [harm] at hrest
  · by_contra hne
    obtain ⟨-, -, -, -, -, -, hdarm, -⟩ := exec_writers hx
    obtain rfl := hdarm (.inl hne)
    obtain ⟨-, rfl⟩ | ⟨-, -, rfl⟩ | ⟨-, hrest, -⟩ := execDarm_cases hx
    · simp at hne
    · simp at hne
    · simp [harm] at hrest

/-- No host turn disturbs a transfer in flight. -/
theorem step_host_keeps_transfer {s t : State} (hm : moving s = .host) (harm : s.armed = true)
    (hs : step s = .next t) : t.armed = true ∧ t.dSrc = s.dSrc := by
  obtain ⟨-, rfl⟩ | ⟨w, ws, e, -, -, -, rfl⟩ | ⟨w, ws, i, -, -, -, -, hx⟩ | ⟨htimer, -⟩ | ⟨hdma, -⟩
    | ⟨henv, -⟩ := step_cases hs
  · -- a turn that passes
    simp [harm]
  · -- an illegal word
    simp [harm]
  · -- a command
    simpa using exec_keeps_transfer (by simpa using harm) hx
  · -- `TICK`
    simp [hm] at htimer
  · -- `DMAXFER`
    simp [hm] at hdma
  · -- RESET
    simp [hm] at henv

/-- Host turns beside a running timer leave it as it was, and the transfer if one is in flight. -/
theorem runSteps_hosts_beside {s : State} {m : Nat} {rest : List Agent} (h : StateInv s) (hrun : s.tstate = .running)
    (hs : s.sched = List.replicate m .host ++ rest) (hquiet : s.armed = true ∨ m = 0) :
    ∃ t, runSteps m s = .next t ∧ t.sched = rest ∧ TimerUntouched s t ∧ t.armed = s.armed ∧ t.dSrc = s.dSrc := by
  obtain harm | rfl := hquiet
  · obtain ⟨t, ht, hsched, hsame⟩ :=
      runSteps_hosts (List.replicate m .host) hs (fun a => List.eq_of_mem_replicate) hrun (h.bufLen_pos hrun)
    have hkept : t.armed = true ∧ t.dSrc = s.dSrc :=
      runSteps_keeps (P := fun u => u.armed = true ∧ u.dSrc = s.dSrc)
        (fun u v _ hm hstep ⟨harm, hsrc⟩ =>
          (step_host_keeps_transfer (List.eq_of_mem_replicate hm) harm hstep).imp_right (·.trans hsrc))
        h hs ht ⟨harm, rfl⟩
    rw [List.length_replicate] at ht
    exact ⟨t, ht, hsched, hsame, hkept.1.trans harm.symm, hkept.2⟩
  · exact ⟨s, rfl, hs, .refl s, rfl, rfl⟩

/-! #### A `TICK` with host turns around it -/

/-- `r` is one `TICK` after `s`, with host turns before and behind it: the counter has moved on, a request waits
exactly if the counter rolled over under an armed engine, and the transfer is where it was. -/
structure Ticked (s r : State) : Prop where
  cfg : r.cfg = s.cfg
  tstate : r.tstate = s.tstate
  count : r.tCnt = nextCount s
  request : r.dreq = true ↔ s.tCnt = s.tTop ∧ s.armed = true
  armed : r.armed = s.armed
  source : r.dSrc = s.dSrc

theorem runSteps_ticked {s : State} {a b : Nat} {rest : List Agent} (h : StateInv s) (hrun : s.tstate = .running)
    (hreq : s.dreq = false) (hs : s.sched = List.replicate a .host ++ .timer :: (List.replicate b .host ++ rest))
    (hquiet : s.armed = true ∨ (a = 0 ∧ b = 0)) :
    ∃ r, runSteps (a + 1 + b) s = .next r ∧ r.sched = rest ∧ Ticked s r := by
  obtain ⟨u, hu, hsched, ⟨hcfg, hdreq, htstate, htop, -, hcnt, -⟩, harm, hsrc⟩ :=
    runSteps_hosts_beside h hrun hs (hquiet.imp_right And.left)
  have hrun' : u.tstate = .running := htstate.trans hrun
  have htick : step u = .next (tick { u with sched := List.replicate b .host ++ rest }) :=
    step_timer hsched hrun' (hdreq.trans hreq)
  obtain ⟨r, hr, hsched', ⟨hcfg', hdreq', htstate', -, -, hcnt', -⟩, harm', hsrc'⟩ :=
    runSteps_hosts_beside (s := tick { u with sched := List.replicate b .host ++ rest })
      (everyStepKeepsTheInvariant _ _ (h.afterRun hu) htick) hrun' rfl
      (hquiet.imp (harm.trans ·) And.right)
  refine ⟨r, ?_, hsched', hcfg'.trans hcfg, htstate'.trans htstate, ?_, ?_, harm'.trans harm, hsrc'.trans hsrc⟩
  · calc runSteps (a + 1 + b) s
        = runSteps (1 + b) u := by rw [Nat.add_assoc]; exact runSteps_add hu
      _ = runSteps b _ := by rw [Nat.add_comm]; exact runSteps_succ b htick
      _ = .next r := hr
  · rw [hcnt', tick_tCnt]
    simp [nextCount, rollsOver, hcnt, htop]
  · rw [hdreq', tick_dreq, nextRequest_eq_true_iff]
    simp [hcnt, htop, harm, hdreq, hreq]

/-! #### The place in a transfer -/

/-- A programmed timer counts `0 .. T_TOP` in a period (R27, R45(b)). -/
theorem StateInv.period_eq {s : State} (h : StateInv s) (hrun : s.tstate = .running) :
    s.cfg.period = s.tTop.toNat + 1 := by
  obtain ⟨htop, -, -, -, -, -, hvalid⟩ := h.programmed (by simp [hrun])
  obtain ⟨-, -, -, -, -, hper, -⟩ := (configValid_iff s.cfg).1 hvalid
  omega

/-- A running timer with no request waiting, `n` ticks after the start of the period before the first byte: the
counter and the bytes moved are the remainder and the quotient of `n`, and the engine is armed until it has moved the
whole buffer. -/
structure AtTick (n : Nat) (s : State) : Prop where
  inv : StateInv s
  running : s.tstate = .running
  served : s.dreq = false
  count : s.tCnt.toNat = n % s.cfg.period
  source : s.dSrc.toNat = min (n / s.cfg.period) s.cfg.bufLen
  armed : s.armed = true ↔ n / s.cfg.period < s.cfg.bufLen

/-- A transfer that has moved no byte. -/
theorem AtTick.start {s : State} (h : StateInv s) (hrun : s.tstate = .running) (harm : s.armed = true)
    (hreq : s.dreq = false) (hsrc : s.dSrc = 0) : AtTick s.tCnt.toNat s := by
  have hlt : s.tCnt.toNat < s.cfg.period := by rw [h.period_eq hrun]; exact Nat.lt_succ_of_le (h.counting hrun)
  have hpos := h.bufLen_pos hrun
  exact ⟨h, hrun, hreq, (Nat.mod_eq_of_lt hlt).symm, by simp [hsrc, Nat.div_eq_of_lt hlt],
    by simpa [harm, Nat.div_eq_of_lt hlt] using hpos⟩

theorem AtTick.withSched {n : Nat} {s : State} (h : AtTick n s) (as : List Agent) : AtTick n { s with sched := as } :=
  { h with inv := { h.inv with } }

/-- Quotient and remainder, read off a sum. -/
theorem div_mod_of_eq_mul_add {n p q j : Nat} (h : n = q * p + j) (hj : j < p) : n / p = q ∧ n % p = j :=
  (Nat.div_mod_unique (Nat.zero_lt_of_lt hj)).2 ⟨by rw [h, Nat.mul_comm, Nat.add_comm], hj⟩

theorem AtTick.period_pos {n : Nat} {s : State} (h : AtTick n s) : 0 < s.cfg.period := by
  rw [h.inv.period_eq h.running]; exact Nat.succ_pos _

theorem AtTick.count_eq_top_iff {n : Nat} {s : State} (h : AtTick n s) :
    s.tCnt = s.tTop ↔ n % s.cfg.period + 1 = s.cfg.period := by
  rw [h.inv.period_eq h.running, Nat.add_right_cancel_iff, ← h.inv.period_eq h.running, ← h.count,
    BitVec.toNat_inj]

/-- One more tick carries into the quotient exactly at the rollover. -/
theorem AtTick.div_mod_succ {n : Nat} {s : State} (h : AtTick n s) :
    (s.tCnt = s.tTop ∧ (n + 1) / s.cfg.period = n / s.cfg.period + 1 ∧ (n + 1) % s.cfg.period = 0)
      ∨ (s.tCnt ≠ s.tTop ∧ (n + 1) / s.cfg.period = n / s.cfg.period
          ∧ (n + 1) % s.cfg.period = n % s.cfg.period + 1) := by
  have hdiv := Nat.div_add_mod' n s.cfg.period
  have hmod := Nat.mod_lt n h.period_pos
  rw [Ne, h.count_eq_top_iff]
  by_cases hroll : n % s.cfg.period + 1 = s.cfg.period
  · exact .inl ⟨hroll, div_mod_of_eq_mul_add (by rw [Nat.succ_mul]; omega) h.period_pos⟩
  · exact .inr ⟨hroll, div_mod_of_eq_mul_add (by omega) (by omega)⟩

theorem AtTick.toNat_nextCount {n : Nat} {s : State} (h : AtTick n s) :
    (nextCount s).toNat = (n + 1) % s.cfg.period := by
  obtain ⟨hroll, -, hmod⟩ | ⟨hroll, -, hmod⟩ := h.div_mod_succ
  · rw [hmod, nextCount_of_rollover hroll]; rfl
  · have hle := h.inv.counting h.running
    rw [hmod, nextCount_of_ne hroll, ← h.count]
    bv_omega

/-- The bytes moved grow where the counter rolls over under an armed engine. -/
theorem AtTick.min_div_succ {n : Nat} {s : State} (h : AtTick n s) :
    min ((n + 1) / s.cfg.period) s.cfg.bufLen
      = s.dSrc.toNat + if s.tCnt = s.tTop ∧ s.armed = true then 1 else 0 := by
  simp only [h.source, h.armed]
  obtain ⟨hroll, hdiv, -⟩ | ⟨hroll, hdiv, -⟩ := h.div_mod_succ
  · simp only [hdiv, hroll, true_and]; split <;> omega
  · simp [hdiv, hroll]

/-- The engine stays armed until it has moved the whole buffer. -/
theorem AtTick.div_succ_lt_iff {n : Nat} {s : State} (h : AtTick n s) :
    (n + 1) / s.cfg.period < s.cfg.bufLen
      ↔ s.armed = true ∧ (s.tCnt = s.tTop → s.dSrc.toNat + 1 < s.cfg.bufLen) := by
  rw [h.source, h.armed]
  obtain ⟨hroll, hdiv, -⟩ | ⟨hroll, hdiv, -⟩ := h.div_mod_succ
  · simp only [hdiv, hroll, true_imp_iff]; omega
  · simp [hdiv, hroll]

/-- The engine is armed after a `DMAXFER` exactly if the byte was not the last (R169). -/
theorem StateInv.stillArmed_iff {s : State} (h : StateInv s) (harm : s.armed = true) :
    stillArmed (countDown s.dRem) s.armed = true ↔ s.dSrc.toNat + 1 < s.cfg.bufLen := by
  obtain ⟨hconf, hpos, hle, hsrc⟩ := h.inFlight harm
  obtain ⟨-, hlen, -⟩ := h.configured hconf
  rw [harm, stillArmed_true_iff, countDown]
  bv_omega

/-- One `TICK` with host turns around it, and its `DMAXFER` turn. -/
theorem AtTick.afterTurn {n : Nat} {s r : State} {as : List Agent} (h : AtTick n s) (ht : Ticked s r) (hr : StateInv r)
    (hs : r.sched = .dma :: as) :
    ∃ t, step r = .next t ∧ t.sched = as ∧ t.cfg = s.cfg ∧ AtTick (n + 1) t := by
  have hcount : r.tCnt.toNat = (n + 1) % r.cfg.period := by rw [ht.count, h.toNat_nextCount, ht.cfg]
  have hmoved := h.min_div_succ
  have hleft := h.div_succ_lt_iff
  rw [← ht.cfg, ← ht.source] at hmoved hleft
  have hrun : r.tstate = .running := ht.tstate.trans h.running
  by_cases hreq : r.dreq = true
  · obtain ⟨hroll, harm⟩ := ht.request.1 hreq
    have harm' : r.armed = true := ht.armed.trans harm
    have hstep := step_dma_enabled hs harm' hreq (hr.source_inside harm')
    refine ⟨_, hstep, by simp, by simpa using ht.cfg, everyStepKeepsTheInvariant _ _ hr hstep, by simpa using hrun, rfl,
      by simpa using hcount, ?_, ?_⟩
    · simp [hmoved, hroll, harm, hr.toNat_advanceSource harm']
    · simpa [hleft, hroll, harm] using hr.stillArmed_iff harm'
  · have hstep := step_dma_disabled hs (.inr (Bool.eq_false_iff.2 hreq))
    have hstay : ¬ (s.tCnt = s.tTop ∧ s.armed = true) := mt ht.request.2 hreq
    refine ⟨_, hstep, rfl, ht.cfg, everyStepKeepsTheInvariant _ _ hr hstep, hrun, Bool.eq_false_iff.2 hreq, hcount,
      ?_, ?_⟩
    · simp [hmoved, hstay]
    · simp only [hleft, ht.armed]
      tauto

/-- One round of a paced schedule: up to `r` the `TICK` with host turns before and behind it, then the engine's
turn. -/
theorem AtTick.round {n a b : Nat} {s : State} {rest : List Agent} (h : AtTick n s)
    (hs : s.sched = List.replicate a .host ++ .timer :: (List.replicate b .host ++ .dma :: rest))
    (hquiet : n < s.cfg.bufLen * s.cfg.period ∨ (a = 0 ∧ b = 0)) :
    ∃ r t, runSteps (a + 1 + b) s = .next r ∧ r.sched = .dma :: rest ∧ Ticked s r ∧ step r = .next t
      ∧ t.sched = rest ∧ t.cfg = s.cfg ∧ AtTick (n + 1) t := by
  obtain ⟨r, hr, hsched, ht⟩ := runSteps_ticked h.inv h.running h.served hs
    (hquiet.imp_left fun hlt => h.armed.2 (Nat.div_lt_of_lt_mul (by rwa [Nat.mul_comm])))
  obtain ⟨t, hstep, hend⟩ := h.afterTurn ht (h.inv.afterRun hr) hsched
  exact ⟨r, t, hr, hsched, ht, hstep, hend⟩

/-! #### Runs of ticks -/

theorem length_paced_cons (a b : Nat) (p : List (Nat × Nat)) :
    (paced ((a, b) :: p)).length = a + 1 + b + (1 + (paced p).length) := by
  simp [paced_cons]; omega

/-- A run of ticks, with host turns around them while the engine is armed. -/
theorem AtTick.run (p : List (Nat × Nat)) {n : Nat} {s : State} {rest : List Agent} (h : AtTick n s)
    (hs : s.sched = paced p ++ rest)
    (hquiet : n + p.length ≤ s.cfg.bufLen * s.cfg.period ∨ ∀ x ∈ p, x = (0, 0)) :
    ∃ t, runSteps (paced p).length s = .next t ∧ t.sched = rest ∧ t.cfg = s.cfg ∧ AtTick (n + p.length) t := by
  induction p generalizing n s with
  | nil => exact ⟨s, rfl, hs, rfl, h⟩
  | cons x p ih =>
    obtain ⟨a, b⟩ := x
    rw [List.length_cons] at hquiet ⊢
    obtain ⟨r, u, hr, -, -, hstep, hsched, hcfg, hu⟩ := h.round (a := a) (b := b) (rest := paced p ++ rest)
      (by simpa [paced_cons] using hs) (hquiet.imp (by omega) fun hz => by simpa using hz _ (.head p))
    obtain ⟨t, ht, hrest, hcfg', hend⟩ := ih hu hsched
      (by rw [hcfg]; exact hquiet.imp (by omega) fun hz y hy => hz y (.tail _ hy))
    refine ⟨t, ?_, hrest, hcfg'.trans hcfg, by rwa [Nat.add_comm p.length, ← Nat.add_assoc]⟩
    calc runSteps (paced ((a, b) :: p)).length s
        = runSteps (1 + (paced p).length) r := by rw [length_paced_cons]; exact runSteps_add hr
      _ = runSteps (paced p).length u := by rw [Nat.add_comm]; exact runSteps_succ _ hstep
      _ = .next t := ht

/-- A run of ticks with no host turn in between, of any length. -/
theorem AtTick.runTicks {n : Nat} {s : State} (h : AtTick n s) (m : Nat) {rest : List Agent}
    (hs : s.sched = ticks m ++ rest) :
    ∃ t, runSteps (2 * m) s = .next t ∧ t.sched = rest ∧ t.cfg = s.cfg ∧ AtTick (n + m) t := by
  have hrun := h.run (List.replicate m (0, 0)) (rest := rest) (by rw [hs, ticks_eq_paced])
    (.inr fun x hx => List.eq_of_mem_replicate hx)
  rwa [← ticks_eq_paced, length_ticks, List.length_replicate] at hrun

/-- Settles O43: the engine is armed while the tick count is below `N * PERIOD`, and the counter stands at `T_CNT` at
the start. -/
theorem transferCompletesWithinItsBound : Obligations.TransferCompletesWithinItsBound := by
  intro s h hrun harm hreq hsrc
  have hstart := AtTick.start h hrun harm hreq hsrc
  have hcnt := h.counting hrun
  have hper := h.period_eq hrun
  have hsplit : (s.cfg.bufLen - 1) * s.cfg.period + s.cfg.period = s.cfg.bufLen * s.cfg.period := by
    rw [← Nat.succ_mul, Nat.succ_eq_add_one, Nat.sub_add_cancel (h.bufLen_pos hrun)]
  refine ⟨s.cfg.bufLen * s.cfg.period - s.tCnt.toNat, by omega, by omega, fun m rest => ?_⟩
  obtain ⟨t, ht, -, hcfg, hend⟩ :=
    (hstart.withSched (ticks m ++ rest)).runTicks m rfl
  have hcfg' : t.cfg = s.cfg := hcfg
  refine ⟨t, ht, ?_⟩
  rw [hend.armed, Nat.div_lt_iff_lt_mul hend.period_pos, hcfg']
  omega

/-! #### The last round -/

theorem paced_append (p q : List (Nat × Nat)) : paced (p ++ q) = paced p ++ paced q := by
  induction p with
  | nil => rfl
  | cons x p ih => obtain ⟨a, b⟩ := x; simp [paced_cons, ih]

/-- The run of a transfer up to one more tick: `u` before its round, `r` before its engine turn, `t` after it. -/
theorem AtTick.runToLastTurn {n a b : Nat} {q : List (Nat × Nat)} {s : State} {rest : List Agent} (h : AtTick n s)
    (hs : s.sched = paced (q ++ [(a, b)]) ++ rest) (hlt : n + q.length < s.cfg.bufLen * s.cfg.period) :
    ∃ u r t, runSteps ((paced (q ++ [(a, b)])).length - 1) s = .next r
      ∧ runSteps (paced (q ++ [(a, b)])).length s = .next t
      ∧ AtTick (n + q.length) u ∧ u.cfg = s.cfg ∧ Ticked u r ∧ r.sched = .dma :: rest ∧ step r = .next t
      ∧ t.cfg = s.cfg ∧ AtTick (n + q.length + 1) t := by
  have hlen : (paced (q ++ [(a, b)])).length = (paced q).length + (a + 1 + b) + 1 := by
    rw [paced_append, List.length_append, length_paced_cons]; simp; omega
  obtain ⟨u, hu, hsched, hcfg, hat⟩ := h.run q (rest := paced [(a, b)] ++ rest)
    (by simpa [paced_append] using hs) (.inl hlt.le)
  obtain ⟨r, t, hr, hsched', htick, hstep, -, hcfg', hend⟩ := hat.round (a := a) (b := b) (rest := rest)
    (by simpa [paced_cons] using hsched) (.inl (by rwa [hcfg]))
  have hbefore : runSteps ((paced q).length + (a + 1 + b)) s = .next r := (runSteps_add hu).trans hr
  refine ⟨u, r, t, ?_, ?_, hat, hcfg, htick, hsched', hstep, hcfg'.trans hcfg, hend⟩
  · rw [hlen, Nat.add_sub_cancel, hbefore]
  · rw [hlen, runSteps_add hbefore, runSteps_succ 0 hstep]; rfl

end Sys2Proof.Machine
end

section
/-! The stream of a transfer (spec/43_dma_streamer.md R170, R171, R174): which byte each `DMAXFER` reads, and the line
that the bytes give. -/

namespace Sys2Proof.Machine

/-! #### Under host turns -/

theorem environment_notMem_paced (p : List (Nat × Nat)) : Agent.environment ∉ paced p := by
  induction p with
  | nil => simp
  | cons x p ih => obtain ⟨a, b⟩ := x; simp [paced_cons, ih]

theorem count_timer_paced (p : List (Nat × Nat)) : (paced p).count .timer = p.length := by
  induction p with
  | nil => rfl
  | cons x p ih => obtain ⟨a, b⟩ := x; simp [paced_cons, List.count_replicate, ih]

/-- No turn before the first rollover is a `DMAXFER` (R168). -/
theorem AtTick.turn_before_first_rollover {s : State} {q : List (Nat × Nat)} {a b : Nat} {rest : List Agent}
    (h : AtTick s.tCnt.toNat s) (hs : s.sched = paced (q ++ [(a, b)]) ++ rest)
    (hle : q.length + 1 ≤ s.tTop.toNat - s.tCnt.toNat) :
    ∃ r t, runSteps ((paced (q ++ [(a, b)])).length - 1) s = .next r
      ∧ runSteps (paced (q ++ [(a, b)])).length s = .next t
      ∧ moving r = .dma ∧ r.dreq = false ∧ t.dSrc = 0 ∧ t.tCcb = s.tCcb ∧ t.armed = true := by
  have hper := h.inv.period_eq h.running
  have hbuf := h.inv.bufLen_pos h.running
  have hlt : s.tCnt.toNat + q.length + 1 < s.cfg.period := by omega
  have hmul : s.cfg.period ≤ s.cfg.bufLen * s.cfg.period := Nat.le_mul_of_pos_left _ hbuf
  obtain ⟨u, r, t, hr, ht, hu, hucfg, htick, hsched, -, htcfg, hend⟩ := h.runToLastTurn hs (by omega)
  have hroll : u.tCnt ≠ u.tTop := by
    rw [Ne, hu.count_eq_top_iff, hucfg, Nat.mod_eq_of_lt (by omega)]; omega
  have hsrc := hend.source
  have harm := hend.armed
  rw [htcfg, Nat.div_eq_of_lt hlt] at hsrc harm
  obtain ⟨t', ht', -, hon⟩ := runSteps_ticksOn _ hs (environment_notMem_paced _) h.running h.served (fun _ => hbuf)
    (by rw [count_timer_paced, List.length_append, List.length_singleton]; omega)
  obtain rfl := Host.Outcome.next.inj (ht'.symm.trans ht)
  exact ⟨r, t', hr, ht, moving_cons hsched, Bool.eq_false_iff.2 fun hd => hroll (htick.request.1 hd).1,
    BitVec.eq_of_toNat_eq (by simpa using hsrc), hon.compare, harm.2 hbuf⟩

/-- The place after the first rollover, `k` periods and `j` ticks (R171): the turn there is a `DMAXFER` exactly if
`j = 0`, and then it reads index `k`. -/
theorem AtTick.turn_in_period {s : State} {q : List (Nat × Nat)} {a b k j : Nat} {rest : List Agent}
    (h : AtTick s.tCnt.toNat s) (hs : s.sched = paced (q ++ [(a, b)]) ++ rest)
    (hplace : s.tCnt.toNat + q.length + 1 = (k + 1) * s.cfg.period + j) (hj : j < s.cfg.period)
    (hle : (k + 1) * s.cfg.period + j ≤ s.cfg.bufLen * s.cfg.period) :
    ∃ r t, runSteps ((paced (q ++ [(a, b)])).length - 1) s = .next r
      ∧ runSteps (paced (q ++ [(a, b)])).length s = .next t
      ∧ moving r = .dma ∧ r.armed = true
      ∧ (r.dreq = true ↔ j = 0) ∧ (j = 0 → r.dSrc.toNat = k)
      ∧ (∀ v, j = 0 → r.mem.read k = some v → t.tCcb = v)
      ∧ t.dSrc.toNat = min (k + 1) s.cfg.bufLen ∧ (t.armed = true ↔ k + 1 < s.cfg.bufLen) := by
  obtain ⟨u, r, t, hr, ht, hu, hucfg, htick, hsched, hstep, htcfg, hend⟩ := h.runToLastTurn hs (by omega)
  obtain ⟨hdiv, hmod⟩ := div_mod_of_eq_mul_add hplace hj
  have huarm : u.armed = true := by
    rw [hu.armed, hucfg, Nat.div_lt_iff_lt_mul (by omega)]; omega
  have hrarm : r.armed = true := htick.armed.trans huarm
  have hcarry := hu.div_mod_succ
  rw [hucfg, hdiv, hmod] at hcarry
  have hreq : r.dreq = true ↔ j = 0 := by
    rw [htick.request, and_iff_left huarm]
    obtain ⟨hroll, -, hj0⟩ | ⟨hroll, -, hj0⟩ := hcarry
    · exact iff_of_true hroll hj0
    · exact iff_of_false hroll (by omega)
  have hsrc (hj0 : j = 0) : r.dSrc.toNat = k := by
    have hlt := hu.armed.1 huarm
    rw [htick.source, hu.source, hucfg, Nat.min_eq_left (hucfg ▸ hlt.le)]
    omega
  refine ⟨r, t, hr, ht, moving_cons hsched, hrarm, hreq, hsrc, fun v hj0 hv => ?_, ?_, ?_⟩
  · obtain ⟨t', hstep', hread, -⟩ := dmaxferMovesOneByte r rest hsched hrarm (hreq.2 hj0)
      ((h.inv.afterRun hr).source_inside hrarm)
    obtain rfl := Host.Outcome.next.inj (hstep'.symm.trans hstep)
    exact (hread v (by rwa [hsrc hj0])).1
  · rw [hend.source, htcfg, hdiv]
  · rw [hend.armed, htcfg, hdiv]

/-- The first rollover is `T_TOP - T_CNT + 1` ticks away; `k` periods and `j` ticks later the tick count has the
quotient `k + 1` and the remainder `j`. -/
theorem AtTick.count_add {s : State} (h : AtTick s.tCnt.toNat s) (k j : Nat) :
    s.tCnt.toNat + ((s.tTop.toNat - s.tCnt.toNat) + k * s.cfg.period + j + 1) = (k + 1) * s.cfg.period + j := by
  have hle := h.inv.counting h.running
  have hper := h.inv.period_eq h.running
  rw [Nat.succ_mul]
  omega

/-- Settles O53: before the first rollover by `AtTick.turn_before_first_rollover`, from it on by
`AtTick.turn_in_period`; the engine is armed up to the turn, since the place before it lies below `N * PERIOD`. -/
theorem eachPeriodStreamsTheNextIndexUnderHostSteps : Obligations.EachPeriodStreamsTheNextIndexUnderHostSteps := by
  intro s p rest h hrun harm hreq hsrc hne hs
  obtain ⟨q, ⟨a, b⟩, rfl⟩ := (List.eq_nil_or_concat' p).resolve_left hne
  have hstart := AtTick.start h hrun harm hreq hsrc
  have hper := h.period_eq hrun
  rw [List.length_append, List.length_singleton]
  refine ⟨hstart.turn_before_first_rollover hs, fun k j hk hj hlast hlen => ?_⟩
  have hplace : s.tCnt.toNat + q.length + 1 = (k + 1) * s.cfg.period + j := by
    rw [Nat.add_assoc, hlen, hstart.count_add]
  have hle : (k + 1) * s.cfg.period + j ≤ s.cfg.bufLen * s.cfg.period := by
    obtain hk' | hk' := Nat.lt_or_eq_of_le (Nat.succ_le_of_lt hk)
    · calc (k + 1) * s.cfg.period + j ≤ (k + 2) * s.cfg.period := by rw [Nat.succ_mul (k + 1)]; omega
        _ ≤ s.cfg.bufLen * s.cfg.period := Nat.mul_le_mul_right _ hk'
    · rw [hlast hk', Nat.add_zero, ← hk']
  have hturn := hstart.turn_in_period hs hplace (by omega) hle
  rwa [Nat.min_eq_left hk] at hturn

/-! #### Without host turns -/

/-- What a turn of the timer or the engine can do. -/
theorem step_autonomous_cases {s t : State} (hm : moving s = .timer ∨ moving s = .dma) (hs : step s = .next t) :
    t = (nextAgent s).2 ∨ t = tick (nextAgent s).2
    ∨ (s.armed = true ∧ s.dSrc.toNat < s.cfg.bufLen
        ∧ t = moveByte (memRead .dma s.dSrc.toNat (nextAgent s).2).1
          (memRead .dma s.dSrc.toNat (nextAgent s).2).2) := by
  obtain ⟨-, ht⟩ | ⟨w, ws, e, hhost, -⟩ | ⟨w, ws, i, hhost, -⟩ | ⟨-, -, -, ht⟩ | ⟨-, harm, -, hin, ht⟩
    | ⟨henv, -⟩ := step_cases hs
  · exact .inl ht
  · simp [hhost] at hm
  · simp [hhost] at hm
  · exact .inr (.inl ht)
  · exact .inr (.inr ⟨harm, hin, ht⟩)
  · simp [henv] at hm

theorem ticks_add (m n : Nat) : ticks (m + n) = ticks m ++ ticks n := by
  simp only [ticks_eq_paced, List.replicate_add, paced_append]

theorem count_timer_ticks (n : Nat) : (ticks n).count .timer = n := by
  rw [ticks_eq_paced, count_timer_paced, List.length_replicate]

theorem environment_notMem_ticks (n : Nat) : Agent.environment ∉ ticks n :=
  ticks_eq_paced n ▸ environment_notMem_paced _

theorem autonomous_of_mem_ticks {n : Nat} {a : Agent} (h : a ∈ ticks n) : a = .timer ∨ a = .dma := by
  induction n with
  | zero => simp [ticks] at h
  | succ n ih =>
    obtain rfl | h := List.mem_cons.1 h
    · exact .inl rfl
    · exact (List.mem_cons.1 h).elim .inr ih

/-- What the turns of timer and engine keep, `n` ticks keep. -/
theorem runSteps_ticks_keeps {P : State → Prop} {n : Nat} {rest : List Agent} {s t : State}
    (hkeep : ∀ u v, StateInv u → (moving u = .timer ∨ moving u = .dma) → step u = .next v → P u → P v)
    (h : StateInv s) (hs : s.sched = ticks n ++ rest) (hrun : runSteps (2 * n) s = .next t) (hP : P s) : P t :=
  runSteps_keeps (fun u v hu hm => hkeep u v hu (autonomous_of_mem_ticks hm)) h hs (by rwa [length_ticks]) hP

/-- Who made an access, of which kind, at which index (R75). -/
def Access.site (a : Access) : Agent × AccessKind × Nat := (a.agent, a.kind, a.index)

/-- The accesses since a history `past` are one read of each index below the source offset, in ascending order. -/
def ReadInOrder (past : List Access) (s : State) : Prop :=
  s.history.map Access.site
    = (List.range s.dSrc.toNat).reverse.map (fun i => (.dma, .read, i)) ++ past.map Access.site

/-- The next read is of the next index (R169). -/
theorem step_readInOrder {past : List Access} {s t : State} (h : StateInv s)
    (hm : moving s = .timer ∨ moving s = .dma) (hs : step s = .next t) (hread : ReadInOrder past s) :
    ReadInOrder past t := by
  unfold ReadInOrder at hread ⊢
  obtain rfl | rfl | ⟨harm, -, rfl⟩ := step_autonomous_cases hm hs
  · simpa using hread
  · simpa using hread
  · simp [hread, h.toNat_advanceSource harm, List.range_succ, Access.site]

/-- Settles O44: the bytes moved are `min (k + 1) N` (`AtTick`), and they were read in order (`step_readInOrder`). -/
theorem eachByteIsStreamedOnceInOrder : Obligations.EachByteIsStreamedOnceInOrder := by
  intro s k j rest h hrun harm hreq hsrc hj hs
  have hstart := AtTick.start h hrun harm hreq hsrc
  obtain ⟨t, ht, -, hcfg, hend⟩ := hstart.runTicks _ hs
  obtain ⟨hdiv, -⟩ := div_mod_of_eq_mul_add (hstart.count_add k j) (by rw [h.period_eq hrun]; omega)
  have hsrc' : t.dSrc.toNat = min (k + 1) s.cfg.bufLen := by rw [hend.source, hcfg, hdiv]
  have hread : ReadInOrder s.history t :=
    runSteps_ticks_keeps (fun u v hu hm => step_readInOrder hu hm) h hs ht (by simp [ReadInOrder, hsrc])
  rw [ReadInOrder, hsrc'] at hread
  exact ⟨t, ht, hsrc', hread, by rw [hend.armed, hcfg, hdiv]⟩

/-! #### The line -/

/-- `t` is reached from `s` by a transfer of written entries: the buffer and `FAULT` are those of `s`, and the compare
value is the entry behind the source offset, or 0 before the first byte. -/
structure StreamedFrom (s t : State) : Prop where
  cfg : t.cfg = s.cfg
  mem : t.mem = s.mem
  fault : t.fault = s.fault
  before : t.dSrc = 0 → t.tCcb = 0
  compare : ∀ k, t.dSrc.toNat = k + 1 → s.mem.read k = some t.tCcb

/-- A laid out buffer has every entry written (R120). -/
theorem LaidOut.written {s : State} (h : LaidOut s) {k : Nat} (hk : k < s.cfg.bufLen) : ∃ b, s.mem.read k = some b := by
  by_cases hzero : k = 0
  · obtain ⟨b, hb, -⟩ := h.leading
    exact ⟨b, hzero ▸ hb⟩
  · by_cases hlast : k + 1 < s.cfg.bufLen
    · obtain ⟨b, hb, -⟩ := h.data k (by omega) hlast
      exact ⟨b, hb⟩
    · obtain rfl : k = s.cfg.bufLen - 1 := by omega
      exact ⟨0, h.trailing⟩

/-- The entry at the source offset becomes the compare value, without a fault (R169). -/
theorem step_streamedFrom {s u v : State} (hlaid : LaidOut s) (h : StateInv u)
    (hm : moving u = .timer ∨ moving u = .dma) (hs : step u = .next v) (hfrom : StreamedFrom s u) :
    StreamedFrom s v := by
  obtain ⟨hcfg, hmem, hfault, hbefore, hcompare⟩ := hfrom
  obtain rfl | rfl | ⟨harm, hin, rfl⟩ := step_autonomous_cases hm hs
  · exact ⟨by simpa, by simpa, by simpa, by simpa, by simpa⟩
  · exact ⟨by simpa, by simpa, by simpa, by simpa, by simpa⟩
  · obtain ⟨b, hb⟩ := hlaid.written (hcfg ▸ hin)
    have hread : memRead .dma u.dSrc.toNat (nextAgent u).2
        = (b, noteAccess .dma .read u.dSrc.toNat b (nextAgent u).2) :=
      memRead_written (by simpa [hmem] using hb)
    have hsrc := h.toNat_advanceSource harm
    rw [hread]
    refine ⟨by simpa, by simpa, by simpa, fun hzero => ?_, fun k hk => ?_⟩
    · have hzero' : advanceSource u.dSrc = 0 := by simpa using hzero
      simp [hzero'] at hsrc
    · have hk' : u.dSrc.toNat = k := by simpa [hsrc] using hk
      simpa [hk'] using hb

/-- The compare value after `q + 1` periods is entry `q`, and from the end of the transfer on the last entry. -/
theorem StreamedFrom.read_of_div {n q : Nat} {s t : State} (h : StreamedFrom s t) (hat : AtTick n t)
    (hq : n / s.cfg.period = q + 1) : s.mem.read (min q (s.cfg.bufLen - 1)) = some t.tCcb := by
  have hbuf := hat.inv.bufLen_pos hat.running
  have hsrc := hat.source
  rw [h.cfg, hq] at hsrc
  rw [h.cfg] at hbuf
  exact h.compare _ (by omega)

/-- Every entry of a laid out buffer but the last keeps the line high at a rollover (R120, R145). -/
theorem LaidOut.ne_zero {s : State} {k : Nat} {b : Byte} (h : LaidOut s) (hk : k + 1 < s.cfg.bufLen)
    (hb : s.mem.read k = some b) : b ≠ 0 := by
  obtain rfl | hpos := Nat.eq_zero_or_pos k
  · obtain ⟨b', hb', hne⟩ := h.leading
    rwa [Option.some.inj (hb.symm.trans hb')]
  · obtain ⟨b', hb', hle, -⟩ := h.data k hpos hk
    obtain rfl := Option.some.inj (hb.symm.trans hb')
    rintro rfl
    simp at hle

/-- The compare value is nonzero exactly from the first byte of the transfer up to the last but one. -/
theorem StreamedFrom.compare_ne_zero_iff {n : Nat} {s t : State} (h : StreamedFrom s t) (hat : AtTick n t)
    (hlaid : LaidOut s) : t.tCcb ≠ 0 ↔ 1 ≤ n / s.cfg.period ∧ n / s.cfg.period < s.cfg.bufLen := by
  obtain ⟨q, hq⟩ : ∃ q, n / s.cfg.period = q := ⟨_, rfl⟩
  rw [hq]
  cases q with
  | zero =>
    have hsrc : t.dSrc = 0 := BitVec.eq_of_toNat_eq (by rw [hat.source, h.cfg, hq, Nat.zero_min]; rfl)
    simp [h.before hsrc]
  | succ q =>
    have hread := h.read_of_div hat hq
    by_cases hlt : q + 1 < s.cfg.bufLen
    · rw [Nat.min_eq_left (by omega)] at hread
      exact iff_of_true (hlaid.ne_zero hlt hread) ⟨Nat.succ_pos q, hlt⟩
    · rw [Nat.min_eq_right (by omega), hlaid.trailing] at hread
      exact iff_of_false (not_not_intro (Option.some.inj hread).symm) (by omega)

/-- The period lemma (R152) for ticks with no host turn in between: `v` stands before a rollover, and `t` is `j` ticks
after it, with `T_CCB` as the `DMAXFER` of the period left it. -/
theorem AtTick.line_in_period {n j : Nat} {v t : State} {rest : List Agent} (h : AtTick n v) (hroll : v.tCnt = v.tTop)
    (hj : j ≤ v.tTop.toNat) (hs : v.sched = ticks (j + 1) ++ rest) (ht : runSteps (2 * (j + 1)) v = .next t) :
    (v.tCcb = 0 → t.out = false)
      ∧ (v.tCcb ≠ 0 → 1 ≤ t.tCcb.toNat → t.tCcb.toNat ≤ v.tTop.toNat → (t.out = true ↔ j < t.tCcb.toNat))
      ∧ (v.tCcb ≠ 0 → t.tCcb = 0 → t.out = true) := by
  obtain ⟨r, t', -, ht', -, -, hccb, hlow, hpulse, hhigh⟩ :=
    periodLemma v [] (ticks j) rest h.inv h.running h.served hroll hs (by simp) (environment_notMem_ticks j)
      (by rwa [count_timer_ticks])
  rw [show [].length + 2 + (ticks j).length = 2 * (j + 1) by simp; omega] at ht'
  obtain rfl := Host.Outcome.next.inj (ht'.symm.trans ht)
  rw [count_timer_ticks, ← hccb] at hpulse
  exact ⟨hlow, hpulse, fun hp hq => hhigh hp (.inl (hccb ▸ hq))⟩

/-- A transfer of a laid out buffer, `n` ticks on with no host turn in between. -/
theorem AtTick.stream {s : State} (h : AtTick s.tCnt.toNat s) (hlaid : LaidOut s) (hsrc : s.dSrc = 0)
    (hccb : s.tCcb = 0) {n : Nat} {as : List Agent} (hs : s.sched = ticks n ++ as) :
    ∃ t, runSteps (2 * n) s = .next t ∧ t.sched = as ∧ AtTick (s.tCnt.toNat + n) t ∧ StreamedFrom s t := by
  obtain ⟨t, ht, hsched, -, hat⟩ := h.runTicks n hs
  exact ⟨t, ht, hsched, hat,
    runSteps_ticks_keeps (fun u v hu hm hstep => step_streamedFrom hlaid hu hm hstep) h.inv hs ht
      ⟨rfl, rfl, rfl, fun _ => hccb, by simp [hsrc]⟩⟩

/-- Settles O42: `v` is the state before the rollover that begins period `k`; the line follows from the two compare
values, that of `v` and that of the period (`AtTick.line_in_period`), which are entries of the buffer
(`StreamedFrom.read_of_div`). -/
theorem transferPutsTheFrameOnTheLine : Obligations.TransferPutsTheFrameOnTheLine := by
  intro s k j rest h hlaid hrun harm hreq hsrc hccb hj hs
  have hstart := AtTick.start h hrun harm hreq hsrc
  have hper := h.period_eq hrun
  have hcnt := h.counting hrun
  obtain ⟨t, ht, -, htat, htfrom⟩ := hstart.stream hlaid hsrc hccb hs
  obtain ⟨htdiv, htmod⟩ := div_mod_of_eq_mul_add (hstart.count_add k j) (by omega)
  rw [Nat.add_assoc _ j 1, ticks_add, List.append_assoc] at hs
  obtain ⟨v, hv, hvsched, hvat, hvfrom⟩ := hstart.stream hlaid hsrc hccb hs
  have hvplace : s.tCnt.toNat + (s.tTop.toNat - s.tCnt.toNat + k * s.cfg.period) = k * s.cfg.period + s.tTop.toNat := by
    omega
  obtain ⟨hvdiv, hvmod⟩ := div_mod_of_eq_mul_add hvplace (by omega)
  have hroll : v.tCnt = v.tTop := by rw [hvat.count_eq_top_iff, hvfrom.cfg, hvmod, hper]
  have htop : v.tTop.toNat = s.tTop.toNat := by rw [← hroll, hvat.count, hvfrom.cfg, hvmod]
  have hlast : runSteps (2 * (j + 1)) v = .next t := by
    rw [← ht, Nat.add_assoc _ j 1, Nat.mul_add 2 _ (j + 1), runSteps_add hv]
  obtain ⟨hlow, hpulse, hhigh⟩ := hvat.line_in_period hroll (by rwa [htop]) hvsched hlast
  have hprev : v.tCcb ≠ 0 ↔ 1 ≤ k ∧ k < s.cfg.bufLen := hvdiv ▸ hvfrom.compare_ne_zero_iff hvat hlaid
  have hcur : s.mem.read (min k (s.cfg.bufLen - 1)) = some t.tCcb := htfrom.read_of_div htat htdiv
  refine ⟨t, ht, by rw [htat.count, htfrom.cfg, htmod], htfrom.fault, fun i => by rw [htfrom.mem],
    by rw [htat.armed, htfrom.cfg, htdiv], fun hk => ?_, fun b hk hlt hb => ?_, fun hk => ?_, fun hk => ?_⟩
  · -- period 0: the compare value is still that of before the transfer
    exact hlow (not_ne_iff.1 (by rw [hprev]; omega))
  · -- a data period: a pulse of the entry's ticks
    rw [Nat.min_eq_left (by omega), hb] at hcur
    obtain rfl := Option.some.inj hcur
    obtain ⟨b', hb', hpos, hle⟩ := hlaid.data k hk hlt
    obtain rfl := Option.some.inj (hb.symm.trans hb')
    exact hpulse (hprev.2 (by omega)) hpos (by rwa [htop])
  · -- period `N - 1`: the trailing 0 never matches after the rollover
    have hN := h.configured (h.inFlight harm).1
    rw [Nat.min_eq_right (by omega), hlaid.trailing] at hcur
    exact hhigh (hprev.2 (by omega)) (Option.some.inj hcur).symm
  · -- after the transfer
    exact hlow (not_ne_iff.1 (by rw [hprev]; omega))

end Sys2Proof.Machine
end

section
/-! SYSINIT and RDCR (spec/44_refresh_driver.md R190, R191): the boot flag and the one command that tests it, and the
register file as RDCR answers it. -/

namespace Sys2Proof

/-- A register number that fits field `b` is the same number in 8 bits as in the 32 of a word (R86, R91). -/
theorem encode_rdcr {n : Nat} (h : n < 256) : encode (.rdcr n) = 0x40000000#32 ||| BitVec.ofNat 32 n := by
  have hnum : (BitVec.ofNat 8 n).setWidth 32 = BitVec.ofNat 32 n :=
    BitVec.eq_of_toNat_eq (by simp [Nat.mod_eq_of_lt h])
  rw [← hnum]
  exact commandWord_eq_or _ _ _

end Sys2Proof

namespace Sys2Proof.Machine

/-! #### RDCR -/

theorem lowByte_eq_ofNat (h : Half) : lowByte h = BitVec.ofNat 8 (h.toNat % 256) :=
  BitVec.eq_of_toNat_eq (by simp [lowByte])

theorem highByte_eq_ofNat (h : Half) : highByte h = BitVec.ofNat 8 (h.toNat / 256) :=
  BitVec.eq_of_toNat_eq (by simp [highByte, Nat.shiftRight_eq_div_pow])

theorem TState.code_eq_ite (a : TState) :
    a.code = if a = .running then 2#2 else if a = .configured then 1#2 else 0#2 := by
  cases a <;> rfl

/-- The sixteen control registers in the order of R24. -/
def registerFile (s : State) : List Byte :=
  [status s, s.fault, s.tTop, s.tPsc, s.tCnt, s.tCha, s.tChb, s.tCcb, s.pinsel, s.dCtl, lowByte s.dLen,
    highByte s.dLen, lowByte s.dSrc, highByte s.dSrc, lowByte s.dRem, highByte s.dRem]

theorem getElem?_registerFile {n : Nat} (s : State) (h : n < 16) : (registerFile s)[n]? = some (readCr s n) := by
  interval_cases n <;> rfl

theorem exec_rdcr {n : Nat} {s : State} (h : n < 16) : exec (.rdcr n) s = respond (readCr s n) s :=
  if_pos (decide_eq_true h)

theorem exec_rdcr_outside {n : Nat} {s : State} (h : 16 ≤ n) : exec (.rdcr n) s = raiseFault .regIndex s :=
  if_neg (by simpa [registerExists] using h)

/-- Settles O19: below 16 RDCR is the response with its register's byte, and a response writes nothing. -/
theorem rdcrAnswersTheRegisterOrFaultsNine : Obligations.RdcrAnswersTheRegisterOrFaultsNine := by
  refine ⟨fun n hn => ?_, fun n s => ⟨fun hn => ?_, fun hn => ?_⟩⟩
  · rw [← encode_rdcr hn]
    exact decodeOfEncode (.rdcr n) (decide_eq_true hn)
  · obtain ⟨t, ht, hresp, hframe⟩ := respond_frame (readCr s n) s
    refine ⟨t, (exec_rdcr hn).trans ht, ?_, hresp, hframe⟩
    rw [hresp, ← getElem?_registerFile s hn]
    simp only [registerFile, status, faulted, TState.code_eq_ite, lowByte_eq_ofNat, highByte_eq_ofNat]
  · rw [exec_rdcr_outside hn]
    exact raiseFault_faultedWith .regIndex s

/-! #### SYSINIT -/

theorem exec_sysinit (s : State) : exec .sysinit s = .next { s with sysReady := true, resp := none } := rfl

/-- Before SYSINIT, TCFG fails its first test (R141, R190). -/
theorem exec_tcfg_of_not_ready {s : State} (h : s.sysReady = false) : exec .tcfg s = raiseFault .bootOrder s := by
  simp [exec, execTcfg, h]

/-- No command clears the flag: the only one that writes it sets it. -/
theorem exec_keeps_sysReady {i : Instr} {s t : State} (hx : exec i s = .next t) (h : s.sysReady = true) :
    t.sysReady = true := by
  by_contra hne
  obtain ⟨hwriter, -⟩ := exec_writers hx
  obtain rfl := hwriter fun heq => hne (heq.trans h)
  obtain rfl := Host.Outcome.next.inj ((exec_sysinit s).symm.trans hx)
  exact hne rfl

/-- No step but RESET clears the flag (R190). -/
theorem step_keeps_sysReady {s t : State} (hs : step s = .next t) (hm : moving s ≠ .environment)
    (h : s.sysReady = true) : t.sysReady = true := by
  obtain ⟨-, rfl⟩ | ⟨w, ws, e, -, -, -, rfl⟩ | ⟨w, ws, i, -, -, -, -, hx⟩ | ⟨-, -, -, rfl⟩ | ⟨-, -, -, -, rfl⟩
    | ⟨henv, -⟩ := step_cases hs
  · -- a turn that passes
    simpa using h
  · -- an illegal word
    simpa using h
  · -- a command
    exact exec_keeps_sysReady hx (by simpa using h)
  · -- `TICK`
    simpa using h
  · -- `DMAXFER`
    simpa using h
  · -- RESET
    exact absurd henv hm

/-! #### Which command the flag matters to -/

/-- Both outcomes are next states, and they agree in `FAULT`. -/
def AnswerWithSameFault (x y : Outcome) : Prop := ∃ t u, x = .next t ∧ y = .next u ∧ u.fault = t.fault

theorem AnswerWithSameFault.ite {p : Prop} [Decidable p] {x x' y y' : Outcome} (hx : AnswerWithSameFault x x')
    (hy : AnswerWithSameFault y y') : AnswerWithSameFault (if p then x else y) (if p then x' else y') := by
  split <;> assumption

/-- The state with the flag of SYSINIT inverted. -/
def flipReady (s : State) : State := { s with sysReady := !s.sysReady }

theorem raiseFault_flipReady (code : FaultCode) (s : State) :
    AnswerWithSameFault (raiseFault code s) (raiseFault code (flipReady s)) :=
  ⟨_, _, rfl, rfl, by simp [flipReady]⟩

/-- No command but TCFG faults for want of SYSINIT, or for having it (R190): its tests do not read the flag. -/
theorem exec_flipReady {i : Instr} {s : State} (hi : i ≠ .tcfg) (hbuf : 0 < s.cfg.bufLen) :
    AnswerWithSameFault (exec i s) (exec i (flipReady s)) := by
  have hfault (code : FaultCode) := raiseFault_flipReady code s
  cases i with
  | sysinit => exact ⟨_, _, rfl, rfl, rfl⟩
  | encode bit => exact ⟨_, _, rfl, rfl, rfl⟩
  | bufinit =>
    obtain ⟨t, ht, -, -, -, -, -, hfault, -⟩ := exec_bufinit hbuf
    obtain ⟨u, hu, -, -, -, -, -, hfault', -⟩ := exec_bufinit (s := flipReady s) hbuf
    exact ⟨t, u, ht, hu, hfault'.trans hfault.symm⟩
  | bufwr idx val => exact .ite ⟨_, _, rfl, rfl, rfl⟩ (hfault _)
  | bufrd idx => exact .ite ⟨_, _, rfl, rfl, by simp [memRead_fault, flipReady]⟩ (hfault _)
  | tcfg => exact absurd rfl hi
  | tstart => exact .ite (hfault _) ⟨_, _, rfl, rfl, rfl⟩
  | dcfg => exact .ite (hfault _) (.ite (hfault _) ⟨_, _, rfl, rfl, rfl⟩)
  | darm => exact .ite (hfault _) (.ite (hfault _) ⟨_, _, rfl, rfl, rfl⟩)
  | rdcr n => exact .ite ⟨_, _, rfl, rfl, rfl⟩ (hfault _)

/-- Settles O9: SYSINIT writes the flag alone; which steps keep it is `step_keeps_sysReady`, which commands do without
it is `exec_flipReady`. -/
theorem sysinitSetsReady : Obligations.SysinitSetsReady := by
  refine ⟨decodeOfEncode .sysinit rfl, fun s => ⟨_, exec_sysinit s, ?_⟩, fun c => ⟨_, exec_sysinit _, ?_⟩,
    fun s t => step_keeps_sysReady, fun s h => ?_, fun i s => exec_flipReady⟩
  · simp [sameTimer, sameEngine, sameBuffer, sameRecord, sameOutside]
  · simp [readCr, status, faulted, TState.code, State.resetWith]
  · exact exec_tcfg_of_not_ready h ▸ raiseFault_faultedWith .bootOrder s

end Sys2Proof.Machine
end

section
/-! SYSINIT and LEDINIT from reset (spec/44_refresh_driver.md R192): the state depends only on which of the four
commands have run, not on their order, as long as TCFG comes before TSTART. -/

namespace Sys2Proof.Machine

/-! #### Sequences -/

theorem runCommands_cons {i : Instr} {is : List Instr} {s t : State} (h : exec i s = .next t) :
    runCommands (i :: is) s = runCommands is t := by
  simp only [runCommands, h]

/-- Of two elements the one that comes first in a list is in every initial part that holds the other. -/
theorem mem_of_idxOf_lt_of_mem {α : Type} [DecidableEq α] {a b : α} {l l' : List α}
    (hlt : (l ++ l').idxOf a < (l ++ l').idxOf b) (hb : b ∈ l) : a ∈ l := by
  by_contra ha
  rw [List.idxOf_append_of_notMem ha, List.idxOf_append_of_mem hb] at hlt
  have := List.idxOf_lt_length_of_mem hb
  omega

/-! #### The boot state -/

/-- The state that SYSINIT and then `done` leave from reset, where `done` is some of LEDINIT's commands, with TSTART only
behind TCFG: what a command writes stands exactly if the command is among them. -/
def bootState (c : Config) (done : List Instr) : State :=
  { State.resetWith c with
    sysReady := true
    mem := if .bufinit ∈ done then [(0, 255)] else []
    history := if .bufinit ∈ done then [⟨.host, .write, 0, 255⟩] else []
    tTop := if .tcfg ∈ done then BitVec.ofNat 8 (c.period - 1) else 0
    tPsc := if .tcfg ∈ done then BitVec.ofNat 8 c.prescale else 0
    tCha := if .tcfg ∈ done then 0x05 else 0
    tChb := if .tcfg ∈ done then 0x05 else 0
    pinsel := if .tcfg ∈ done then 0x01 else 0
    tstate := if .tstart ∈ done then .running else if .tcfg ∈ done then .configured else .idle
    dCtl := if .dcfg ∈ done then 0x0D else 0
    dLen := if .dcfg ∈ done then lengthRegister c else 0
    dCfgd := decide (.dcfg ∈ done) }

theorem exec_sysinit_resetWith (c : Config) : exec .sysinit (State.resetWith c) = .next (bootState c []) := rfl

/-- The boot state depends on which commands have run, not on their order. -/
theorem bootState_congr (c : Config) {l l' : List Instr} (h : ∀ i, i ∈ l ↔ i ∈ l') :
    bootState c l = bootState c l' := by
  simp only [bootState, h]

theorem exec_tstart_bootState {c : Config} {done : List Instr} (h : .tcfg ∈ done) (hstart : .tstart ∉ done) :
    exec .tstart (bootState c done) = .next (bootState c (done ++ [.tstart])) := by
  rw [exec_tstart_of_configured (by simp [bootState, h, hstart])]
  simp [bootState, State.resetWith, h]

section
variable {c : Config} {done : List Instr} (hvalid : configValid c = true)
include hvalid

theorem exec_bufinit_bootState (h : .bufinit ∉ done) :
    exec .bufinit (bootState c done) = .next (bootState c (done ++ [.bufinit])) := by
  obtain ⟨-, -, hlen, -⟩ := (configValid_iff c).1 hvalid
  simp [exec, execBufinit, indexInBuffer, leadingIndex, bootState, State.resetWith, hlen, h, memWrite, noteAccess,
    Memory.write, Config.sentLead]

theorem exec_tcfg_bootState (h : .tcfg ∉ done) (hstart : .tstart ∉ done) :
    exec .tcfg (bootState c done) = .next (bootState c (done ++ [.tcfg])) := by
  rw [exec_tcfg_of_configValid rfl (by simp [bootState, h, hstart]) hvalid]
  simp [bootState, State.resetWith, programTimer, hstart]

theorem exec_dcfg_bootState : exec .dcfg (bootState c done) = .next (bootState c (done ++ [.dcfg])) := by
  obtain ⟨-, -, hlen, -⟩ := (configValid_iff c).1 hvalid
  rw [exec_dcfg_at_rest rfl hlen]
  simp [bootState, State.resetWith]

/-! #### The orders of LEDINIT -/

/-- The next command of an order of LEDINIT that keeps TCFG before TSTART. -/
theorem exec_bootState {i : Instr} {l : List Instr} (hperm : (done ++ i :: l).Perm ledinit)
    (hord : (done ++ i :: l).idxOf .tcfg < (done ++ i :: l).idxOf .tstart) :
    exec i (bootState c done) = .next (bootState c (done ++ [i])) := by
  have hnew : i ∉ done := fun h =>
    (List.nodup_append.1 (hperm.nodup_iff.2 (by decide))).2.2 i h i (List.mem_cons_self ..) rfl
  have hi : i ∈ ledinit := hperm.subset (by simp)
  simp only [ledinit, List.mem_cons, List.not_mem_nil, or_false] at hi
  obtain rfl | rfl | rfl | rfl := hi
  · exact exec_bufinit_bootState hvalid hnew
  · exact exec_tcfg_bootState hvalid hnew (mt (mem_of_idxOf_lt_of_mem hord) hnew)
  · exact exec_dcfg_bootState hvalid
  · rw [List.append_cons] at hord
    have hbefore := mem_of_idxOf_lt_of_mem hord (by simp)
    exact exec_tstart_bootState (by simpa using hbefore) hnew

/-- The rest of such an order. -/
theorem runCommands_bootState {l : List Instr} (hperm : (done ++ l).Perm ledinit)
    (hord : (done ++ l).idxOf .tcfg < (done ++ l).idxOf .tstart) :
    runCommands l (bootState c done) = .next (bootState c ledinit) := by
  induction l generalizing done with
  | nil =>
    rw [List.append_nil] at hperm
    rw [bootState_congr c fun i => hperm.mem_iff]; rfl
  | cons i l ih =>
    rw [runCommands_cons (exec_bootState hvalid hperm hord)]
    rw [List.append_cons] at hperm hord
    exact ih hperm hord

/-- SYSINIT and an order of LEDINIT's commands that keeps TCFG before TSTART (R192). -/
theorem runCommands_boot {l : List Instr} (hperm : l.Perm ledinit) (hord : l.idxOf .tcfg < l.idxOf .tstart) :
    runCommands (.sysinit :: l) (State.resetWith c) = .next (bootState c ledinit) := by
  rw [runCommands_cons (exec_sysinit_resetWith c)]
  exact runCommands_bootState (done := []) hvalid hperm hord

end

/-- Settles O49: every order in question ends in `bootState c ledinit` (`runCommands_boot`), whose numbers fit their
registers under a valid configuration. -/
theorem bootReachesTheIdleCarrier : Obligations.BootReachesTheIdleCarrier := by
  intro c hvalid
  obtain ⟨-, -, hlen, -, -, hper, hper', hpsc, hpsc', -, hcount⟩ := (configValid_iff c).1 hvalid
  have htop : (BitVec.ofNat 8 (c.period - 1)).toNat = c.period - 1 := by rw [BitVec.toNat_ofNat]; omega
  have hscale : (BitVec.ofNat 8 c.prescale).toNat = c.prescale := by rw [BitVec.toNat_ofNat]; omega
  have hreg : (lengthRegister c).toNat = c.bufLen := lengthRegister_toNat (by omega)
  refine ⟨bootState c ledinit, runCommands_boot hvalid (.refl _) (by decide), ?_, rfl, fun i hi => ?_, htop, hscale,
    rfl, rfl, rfl, rfl, hreg, rfl, rfl, rfl, rfl, fun l => runCommands_boot hvalid⟩
  · simp [readCr, status, faulted, bootState, ledinit, TState.code, State.resetWith]
  · simp [bootState, ledinit, Memory.read, Memory.unlisted, hi]

end Sys2Proof.Machine
end

section
/-! REFRESH and SERVICE (spec/44_refresh_driver.md R193, R194): COMPOSE and then DARM, with no other step in between
and as host turns anywhere among the turns of the timer and the engine. -/

namespace Sys2Proof.Machine

/-! #### The expansion -/

theorem refresh_of_compose {c : Config} {pattern : List Led} {writes : List Instr}
    (h : compose c pattern = some writes) : refresh c pattern = some (writes ++ [.darm]) := by
  simp [refresh, h]

/-- Settles O51: by the two values of the choice. -/
theorem serviceIsNothingOrRefresh : Obligations.ServiceIsNothingOrRefresh :=
  fun _ _ => ⟨rfl, rfl⟩

/-- Two sequences, one after the other. -/
theorem runCommands_append {is js : List Instr} {s t : State} (h : runCommands is s = .next t) :
    runCommands (is ++ js) s = runCommands js t := by
  induction is generalizing s with
  | nil => cases h; rfl
  | cons i is ih =>
    cases hx : exec i s with
    | next u =>
      rw [runCommands_cons hx] at h
      rw [List.cons_append, runCommands_cons hx, ih h]
    | fault r => simp [runCommands, hx] at h
    | refused r => simp [runCommands, hx] at h

/-! #### DARM on a configured engine -/

/-- DARM leaves a transfer in flight alone and faults 8, or arms the engine at index 0 (R167, R173); it writes no buffer
entry. -/
theorem exec_darm_configured {s : State} (hconf : s.dCfgd = true) :
    ∃ u, exec .darm s = .next u ∧ sameBuffer s u ∧ u.program = s.program
      ∧ (s.armed = true → u.armed = true ∧ u.dSrc = s.dSrc ∧ u.dRem = s.dRem ∧ u.fault = stickyFault s.fault 8)
      ∧ (s.armed = false → u.armed = true ∧ u.dSrc = 0 ∧ u.dRem = s.dLen ∧ u.fault = s.fault) := by
  cases harm : s.armed with
  | true =>
    obtain ⟨u, hu, hfault, -, -, -, ⟨-, -, hsrc, hrem, -, harm', -⟩, hbuf, -, -, hprog, -⟩ :=
      raiseFault_faultedWith .reArmInFlight s
    exact ⟨u, (exec_darm_in_flight hconf harm).trans hu, hbuf, hprog,
      fun _ => ⟨harm'.trans harm, hsrc, hrem, hfault⟩, nofun⟩
  | false => exact ⟨_, exec_darm_at_rest hconf harm, fun _ => rfl, rfl, nofun, fun _ => ⟨rfl, rfl, rfl, rfl⟩⟩

/-- Settles O50: COMPOSE changes nothing apart from the buffer (`runCommands_compose`), so its DARM finds the engine as
REFRESH did. -/
theorem refreshComposesThenArms : Obligations.RefreshComposesThenArms := by
  intro s pattern hlen hpat hconf
  have hcomp := compose_eq hlen hpat
  obtain ⟨-, t, ht, ⟨hfault, -, -, ⟨-, hdlen, hsrc, hrem, hconf', harm, -⟩, -⟩, -⟩ := runCommands_compose hlen hcomp
  obtain ⟨u, hu, hbuf, -, hflight, hrest⟩ := exec_darm_configured (hconf'.trans hconf)
  rw [harm, hsrc, hrem, hfault] at hflight
  rw [harm, hdlen, hfault] at hrest
  exact ⟨_, _, t, u, hcomp, refresh_of_compose hcomp, rfl, ht,
    (runCommands_append ht).trans (runCommands_cons hu), hbuf, hrest, hflight⟩

/-! #### Writes beside the timer and the engine -/

/-- `r` is the machine about to present the commands `is` and then the words `ws`, with the buffer and the
configuration, also that of the engine, of `s`. -/
structure AboutToRun (is : List Instr) (ws : List Word) (s r : State) : Prop where
  program : r.program = commandWords is ++ ws
  buffer : sameBuffer s r
  cfg : r.cfg = s.cfg
  dCfgd : r.dCfgd = s.dCfgd
  dLen : r.dLen = s.dLen

/-- A turn of the timer or the engine is answered and touches none of this (R169: the engine only reads the
buffer). -/
theorem AboutToRun.autonomous {is : List Instr} {ws : List Word} {s r : State} {a : Agent} {as : List Agent}
    (h : AboutToRun is ws s r) (hinv : StateInv r) (hbuf : 0 < r.cfg.bufLen) (hs : r.sched = a :: as)
    (ha : a = .timer ∨ a = .dma) : ∃ r', step r = .next r' ∧ r'.sched = as ∧ AboutToRun is ws s r' := by
  obtain ⟨r', hstep⟩ := machineNeverStops r hinv hbuf
  have hm : moving r = .timer ∨ moving r = .dma := by rwa [moving_cons hs]
  have hsame : r'.program = r.program ∧ r'.mem = r.mem ∧ r'.cfg = r.cfg ∧ r'.dCfgd = r.dCfgd ∧ r'.dLen = r.dLen := by
    obtain rfl | rfl | ⟨-, -, rfl⟩ := step_autonomous_cases hm hstep <;> simp
  obtain ⟨hprog, hmem, hcfg, hconf, hdlen⟩ := hsame
  exact ⟨r', hstep, by rw [step_sched hstep, hs]; rfl, hprog.trans h.program, fun i => hmem ▸ h.buffer i,
    hcfg.trans h.cfg, hconf.trans h.dCfgd, hdlen.trans h.dLen⟩

/-- A host turn presents the word of the first command. -/
theorem AboutToRun.step_host {i : Instr} {is : List Instr} {ws : List Word} {s r : State} {as : List Agent}
    (h : AboutToRun (i :: is) ws s r) (hwf : i.wellFormed = true) (hs : r.sched = .host :: as) :
    step r = exec i { r with sched := as, program := commandWords is ++ ws } :=
  stepRunsTheDecodedCommand r (encode i) _ as i hs h.program (decodeOfEncode i hwf)

/-- A host turn that writes an entry keeps pace with the same write made alone. -/
theorem AboutToRun.bufwr {idx : Nat} {val : Byte} {is : List Instr} {ws : List Word} {s r : State} {as : List Agent}
    (h : AboutToRun (.bufwr idx val :: is) ws s r) (hwf : (Instr.bufwr idx val).wellFormed = true)
    (hidx : idx < s.cfg.bufLen) (hs : r.sched = .host :: as) :
    ∃ s' r', exec (.bufwr idx val) s = .next s' ∧ s'.cfg = s.cfg ∧ step r = .next r' ∧ r'.sched = as
      ∧ AboutToRun is ws s' r' := by
  obtain ⟨s', hx, hat, hbut, -, -, -, -, -, -, ⟨-, hdlen, -, -, hconf, -⟩, hcfg, -⟩ := exec_bufwr val hidx
  obtain ⟨r', hx', hat', hbut', -, -, -, -, -, -, ⟨-, hdlen', -, -, hconf', -⟩, hcfg', hprog', hsched'⟩ :=
    exec_bufwr (s := { r with sched := as, program := commandWords is ++ ws }) val (h.cfg ▸ hidx)
  refine ⟨s', r', hx, hcfg, (h.step_host hwf hs).trans hx', hsched', hprog', fun i => ?_, ?_, ?_, ?_⟩
  · by_cases hi : i = idx
    · rw [hi, hat, hat']
    · rw [hbut i hi, hbut' i hi]; exact h.buffer i
  · rw [hcfg', hcfg]; exact h.cfg
  · rw [hconf', hconf]; exact h.dCfgd
  · rw [hdlen', hdlen]; exact h.dLen

/-- Writes made in host turns, anywhere among turns of the timer and the engine, leave the buffer as the writes made
alone do (R11, R69). -/
theorem runSteps_writes {l rest : List Agent} {is : List Instr} {ws : List Word} {s t r : State}
    (hinv : StateInv r) (hbuf : 0 < s.cfg.bufLen) (hs : r.sched = l ++ rest) (hl : .environment ∉ l)
    (hcount : l.count .host = is.length) (hwf : AllWellFormed is)
    (hin : ∀ i ∈ is, ∃ idx val, idx < s.cfg.bufLen ∧ i = .bufwr idx val) (hrun : runCommands is s = .next t)
    (h : AboutToRun is ws s r) : ∃ r', runSteps l.length r = .next r' ∧ r'.sched = rest ∧ AboutToRun [] ws t r' := by
  induction l generalizing is s r with
  | nil =>
    obtain rfl := List.eq_nil_of_length_eq_zero hcount.symm
    cases hrun
    exact ⟨r, rfl, hs, h⟩
  | cons a l ih =>
    obtain ⟨hne, hl'⟩ := not_or.1 (mt List.mem_cons.2 hl)
    by_cases ha : a = .host
    · subst ha
      rw [List.count_cons_self] at hcount
      obtain ⟨i, is, rfl⟩ := List.exists_cons_of_length_eq_add_one hcount.symm
      obtain ⟨hwfi, hwf'⟩ := List.forall_mem_cons.1 hwf
      obtain ⟨⟨idx, val, hidx, rfl⟩, hin'⟩ := List.forall_mem_cons.1 hin
      obtain ⟨s', r', hx, hcfg, hstep, hsched, h'⟩ := h.bufwr hwfi hidx hs
      rw [runCommands_cons hx] at hrun
      rw [← hcfg] at hbuf hin'
      obtain ⟨q, hq, hrest, hend⟩ := ih (everyStepKeepsTheInvariant _ _ hinv hstep) hbuf hsched hl'
        (Nat.succ.inj hcount) hwf' hin' hrun h'
      exact ⟨q, (runSteps_succ _ hstep).trans hq, hrest, hend⟩
    · rw [List.count_cons_of_ne ha] at hcount
      have hauto : a = .timer ∨ a = .dma := by cases a <;> simp_all
      obtain ⟨r', hstep, hsched, h'⟩ := h.autonomous hinv (h.cfg ▸ hbuf) hs hauto
      obtain ⟨q, hq, hrest, hend⟩ := ih (everyStepKeepsTheInvariant _ _ hinv hstep) hbuf hsched hl' hcount hwf hin
        hrun h'
      exact ⟨q, (runSteps_succ _ hstep).trans hq, hrest, hend⟩

/-- Settles O54: COMPOSE is writes inside the buffer, which keep pace with the same writes made alone
(`runSteps_writes`); then DARM decides by the engine it finds. -/
theorem refreshRacesWithTheEngine : Obligations.RefreshRacesWithTheEngine := by
  intro s t pattern writes ws l rest hinv hconf hcomp hrun hprog hl hcount hs
  obtain ⟨-, -, hlen⟩ := hinv.configured hconf
  obtain ⟨-, t', ht', ⟨-, -, -, ⟨-, hdlen, -, -, hconf', -⟩, -⟩, -⟩ := runCommands_compose hlen hcomp
  obtain rfl := Host.Outcome.next.inj (ht'.symm.trans hrun)
  have hstart : AboutToRun writes (encode .darm :: ws) s s :=
    ⟨by simpa [commandWords] using hprog, fun _ => rfl, rfl, rfl, rfl⟩
  obtain ⟨r, hr, hsched, hend⟩ := runSteps_writes hinv (by omega) hs hl hcount
    (allWellFormed_of_compose hlen hinv.legalCount hcomp) (fun i => mem_compose hlen hcomp) hrun hstart
  have hnext : AboutToRun [.darm] ws t' r := ⟨hend.program, hend.buffer, hend.cfg, hend.dCfgd, hend.dLen⟩
  obtain ⟨u, hu, hbuf, hprog', hflight, hrest⟩ := exec_darm_configured (s := { r with sched := rest, program := ws })
    (hend.dCfgd.trans (hconf'.trans hconf))
  have hstep : step r = .next u := (hnext.step_host rfl hsched).trans hu
  refine ⟨refresh_of_compose hcomp, r, u, hr, ?_, ⟨moving_cons hsched, ?_⟩, hend.buffer, hbuf, hprog', hflight, ?_⟩
  · rw [runSteps_add hr, runSteps_succ 0 hstep]; rfl
  · have hdarm : decode (encode .darm) = .ok .darm := decodeOfEncode .darm rfl
    simp [presented, hend.program, commandWords, hdarm]
  · rwa [← hdlen, ← hend.dLen]

end Sys2Proof.Machine
end

section
/-! Faults and interrupts (spec/60_exceptions.md R211, R214, R215, R218): a faulting command writes `FAULT` alone, every
command is answered, and the three interrupt enables stay 0. -/

namespace Sys2Proof.Machine

/-! #### A faulting command -/

theorem faultState_faultedWith (code : FaultCode) (s : State) : faultedWith code.toByte s (faultState code s) := by
  obtain ⟨t, ht, hfault⟩ := raiseFault_faultedWith code s
  exact Host.Outcome.next.inj ht ▸ hfault

/-- A fault that changes `FAULT` found it 0, so it recorded its own code (R26, R211). -/
theorem faultState_faultedWith_of_change {code : FaultCode} {s : State} (h : (faultState code s).fault ≠ s.fault) :
    faultedWith (faultState code s).fault s (faultState code s) := by
  have hzero : s.fault = 0 := by_contra fun hne => h (faultState_keeps_fault code hne)
  have hcode : (faultState code s).fault = code.toByte := by simp [hzero]
  exact hcode ▸ faultState_faultedWith code s

/-- `MemRead` keeps `FAULT` or records code 10 (R75). -/
theorem memRead_fault_eq_or_ten (who : Agent) (i : Nat) (s : State) :
    (memRead who i s).2.fault = s.fault ∨ (memRead who i s).2.fault = 10 := by
  rw [memRead_fault, stickyFault]
  split_ifs <;> simp

/-- A command that does not raise a fault keeps `FAULT`, or is a BUFRD that records code 10 (R211, R124). -/
theorem exec_fault_cases {i : Instr} {s t : State} (hx : exec i s = .next t) :
    (∃ code, t = faultState code s) ∨ t.fault = s.fault ∨ t.fault = 10 := by
  obtain ⟨code, -, rfl⟩ | ⟨-, rfl⟩ | ⟨bit, -, rfl⟩ | ⟨-, -, rfl⟩ | ⟨idx, val, -, -, rfl⟩ | ⟨idx, -, -, rfl⟩
    | ⟨-, -, -, -, rfl⟩ | ⟨-, -, rfl⟩ | ⟨-, -, -, rfl⟩ | ⟨-, -, -, rfl⟩ | ⟨n, -, -, rfl⟩ := exec_cases hx
  · -- a fault
    exact .inl ⟨code, rfl⟩
  · -- SYSINIT
    simp
  · -- ENCODE
    simp
  · -- BUFINIT
    simp
  · -- BUFWR
    simp
  · -- BUFRD
    exact .inr (memRead_fault_eq_or_ten .host idx s)
  · -- TCFG
    simp
  · -- TSTART
    simp
  · -- DCFG
    simp
  · -- DARM
    simp
  · -- RDCR
    simp

/-- Settles O28: a command that changes `FAULT`, to another code than 10, raised a fault, and found `FAULT` 0. -/
theorem faultingCommandChangesNothingElse : Obligations.FaultingCommandChangesNothingElse := by
  intro i s t hx hne hten
  obtain ⟨code, rfl⟩ | hkept | hrecorded := exec_fault_cases hx
  · exact faultState_faultedWith_of_change hne
  · exact absurd hkept hne
  · exact absurd hrecorded hten

/-! #### Every command is answered -/

/-- Settles O8: along the commands' tests (`exec_answers`). -/
theorem everyCommandIsAnsweredInEveryState : Obligations.EveryCommandIsAnsweredInEveryState :=
  fun i _ => exec_answers i

/-! #### The interrupt enables -/

/-- Both channels' events are masked: the registers hold 0 up to TCFG and 0x05 from then on, and neither has `IM` set
(R30, R31). -/
theorem StateInv.channels_masked {s : State} (h : StateInv s) :
    channelInterrupts s.tCha = false ∧ channelInterrupts s.tChb = false := by
  by_cases hidle : s.tstate = .idle
  · obtain ⟨-, -, hcha, hchb, -⟩ := h.unprogrammed hidle
    simp [channelInterrupts, hcha, hchb]
  · obtain ⟨-, -, hcha, hchb, -⟩ := h.programmed hidle
    simp [channelInterrupts, hcha, hchb]

/-- The completion interrupt is disabled: `D_CTL` holds 0 up to DCFG and 0x0D from then on, and neither has `IRQEN`
set (R36). -/
theorem StateInv.completion_masked {s : State} (h : StateInv s) : completionInterrupts s.dCtl = false := by
  cases hconf : s.dCfgd with
  | false =>
    obtain ⟨hctl, -⟩ := h.unconfigured hconf
    simp [completionInterrupts, hctl]
  | true =>
    obtain ⟨hctl, -⟩ := h.configured hconf
    simp [completionInterrupts, hctl]

/-- Settles O37: the enables of the two channels and of the engine's completion are the three there are. -/
theorem noInterruptIsEverEnabled : Obligations.NoInterruptIsEverEnabled := by
  intro s h
  obtain ⟨hcha, hchb⟩ := h.channels_masked
  simp [interruptEnabled, hcha, hchb, h.completion_masked]

end Sys2Proof.Machine
end

section
/-! RESET as a step (spec/70_reset_and_hazards.md R240), by the registers of the state after reset (R46). -/

namespace Sys2Proof.Machine

/-- The environment's turn, which is never disabled (R240). -/
theorem step_environment {s : State} {as : List Agent} (hs : s.sched = .environment :: as) :
    step s = .next (resetBlock { s with sched := as }) :=
  step_cons hs

/-- What RESET leaves (the program, the schedule, the draw counter and the history) no register shows. -/
@[simp] theorem readCr_resetBlock (s : State) (n : Nat) : readCr (resetBlock s) n = 0 :=
  readCr_resetWith s.cfg n

/-- Settles O25: the fields and the buffer by the values of `resetBlock`, the registers by `readCr_resetBlock`. -/
theorem resetSetsEveryPieceOfState : Obligations.ResetSetsEveryPieceOfState := by
  intro s as hs
  exact ⟨_, step_environment hs, by simp⟩

end Sys2Proof.Machine
end
